-- ==== Sys2Proof/Word.lean ====
section
/-! DEFINITION. The words of the CORE (00_scope.md rules R7, R9, R11). -/

namespace Sys2Proof

/-- A byte: 8 bits (00_scope.md R7). -/
abbrev Byte := BitVec 8

/-- A 16-bit pattern: versions and raw measurement fields (00_scope.md R7). -/
abbrev Half := BitVec 16

/-- A 32-bit word: the CRC accumulator and the CRC value (00_scope.md R7). -/
abbrev Word32 := BitVec 32

/-- The bit pattern of an IEEE 754 binary64 value (00_scope.md R6, R11). -/
abbrev Binary64 := BitVec 64

/-- `TIME` (00_scope.md R6), the type of timestamps, which the spec leaves OPEN.
DESIGN CHOICE (log 1): an instant is named by a natural number; it has no width, and no rule of the
model orders instants or calculates with them. -/
structure Time where
  instant : Nat
  deriving DecidableEq, Repr, Inhabited

end Sys2Proof
end

