-- ==== Sys2Proof/Config.lean ====
section
/-! DEFINITION. The parameters of 00_scope.md rule R6: hardwired constants (10_state.md R36), the
construction parameters, and the values the spec leaves free. -/

namespace Sys2Proof

/-- `OVERFLOW_POLICY` (00_scope.md R6): what PUSH does on a full queue. -/
inductive Policy where
  | dropOldest
  | dropNewest
  deriving DecidableEq, Repr

namespace Config

/-- `FRAME_LEN`. -/
@[simp] abbrev frameLen : Nat := 24
/-- `MARKER`, first byte. -/
abbrev marker0 : Byte := 0x4E#8
/-- `MARKER`, second byte. -/
abbrev marker1 : Byte := 0x45#8
/-- `SUPPORTED_TYPE`. -/
abbrev supportedType : Byte := 0x02#8
/-- `PAYLOAD_OFF`. -/
@[simp] abbrev payloadOff : Nat := 5
/-- `PAYLOAD_LEN`. -/
@[simp] abbrev payloadLen : Nat := 14
/-- `CRC_SPAN`: bytes 0 to 19 are checked. -/
@[simp] abbrev crcSpan : Nat := 20
/-- `CRC_OFF`: bytes 20 to 23 hold the CRC. -/
@[simp] abbrev crcOff : Nat := 20
/-- `POLY`: the coefficients of x^31 to x^0 (41_checksum.md R122). -/
abbrev poly : Word32 := 0x04C11DB7#32
/-- `CRC_INIT`, "all-ones". -/
abbrev crcInit : Word32 := 0xFFFFFFFF#32

/-- `KH64`, the binary64 value nearest to 0.16784924 (42_converter.md R148). -/
abbrev kh64 : Binary64 := 0x3FC57C157A3AAEA8#64
/-- `OFF64`, 1000 exactly (42_converter.md R148). -/
abbrev off64 : Binary64 := 0x408F400000000000#64
/-- `KVV64`, the binary64 value nearest to 9.155413e-3 (42_converter.md R148). -/
abbrev kvv64 : Binary64 := 0x3F82C012BB54BB7F#64
/-- `KANG64`, the binary64 value nearest to 9.587526e-5 (42_converter.md R148). -/
abbrev kang64 : Binary64 := 0x3F1922146CBE832A#64

/-- How far the construction parameter `CAP` lies above 1. OPEN (92_eei_decisions.md D7): a number
nothing in the model constrains. -/
opaque capAboveOne : Nat

/-- The construction parameter `CAP`, an integer of at least 1 (70_reset_and_hazards.md R272).
DESIGN CHOICE (log 3): it stands for whatever capacity was constructed; statements about the machine
quantify over the register `cfgCap` instead. -/
def cap : Nat := capAboveOne + 1

/-- The construction parameter `OVERFLOW_POLICY` at the spec's decided value (92_eei_decisions.md D8). -/
abbrev overflowPolicy : Policy := .dropOldest

/-- The HOST's time source: the value of the n-th `draw TIME` (00_scope.md R10: "a model must
quantify over every value"). A free value, log 1. -/
opaque timeSource : Nat → Time

/-- `POLL_INTERVAL`: OPEN, read by no rule (92_eei_decisions.md D38); the fairness of
Machine/Fairness.lean stands in its place (log 21). -/
opaque pollInterval : Nat

/-- `DRAIN_INTERVAL`: OPEN, read by no rule (92_eei_decisions.md D38); the fairness of
Machine/Fairness.lean stands in its place (log 21). -/
opaque drainInterval : Nat

/-- What a binary64 product is when an operand is an infinity or a NaN: a free value; it never
arises in the CORE (42_converter.md R155, log 16). -/
opaque nonFiniteProduct : Binary64 → Binary64 → Binary64

/-- What a binary64 difference is when an operand is an infinity or a NaN: a free value; it never
arises in the CORE (42_converter.md R155, log 16). -/
opaque nonFiniteDifference : Binary64 → Binary64 → Binary64

end Config

end Sys2Proof
end

