-- ==== Sys2Proof/Machine/Operands.lean ====
section
/-! DEFINITION. Operand assembly: byte sequences and integers (00_scope.md R9, R10), the fields of a
frame and of a payload (30_encoding.md R80 to R86). -/

namespace Sys2Proof.Machine

/-- `le16` (00_scope.md R9): each byte is widened before it is shifted. -/
def le16 (a b : Byte) : Half := a.zeroExtend 16 ||| (b.zeroExtend 16 <<< 8)

/-- `le32` (00_scope.md R9). -/
def le32 (a b c d : Byte) : Word32 :=
  a.zeroExtend 32 ||| (b.zeroExtend 32 <<< 8) ||| (c.zeroExtend 32 <<< 16) ||| (d.zeroExtend 32 <<< 24)

/-- `int16` (00_scope.md R9): the integer a 16-bit pattern stands for in two's complement. -/
def int16 (u : Half) : Int := if u.toNat < 0x8000 then u.toNat else (u.toNat : Int) - 0x10000

/-- The two bytes of a 16-bit integer, little-endian (20_memory.md R50). -/
def bytes16 (u : Half) : List Byte := [u.extractLsb' 0 8, u.extractLsb' 8 8]

/-- The four bytes of a 32-bit integer, little-endian (20_memory.md R50). -/
def bytes32 (u : Word32) : List Byte :=
  [u.extractLsb' 0 8, u.extractLsb' 8 8, u.extractLsb' 16 8, u.extractLsb' 24 8]

/-- `s[i]` (00_scope.md R9); every rule that uses it states why the byte exists. -/
def byteAt (s : List Byte) (i : Nat) : Byte := s.getD i 0#8

/-- The little-endian value of a byte sequence. -/
def leNat : List Byte → Nat
  | [] => 0
  | b :: bs => b.toNat + 256 * leNat bs

/-- `MemRead(i, n)` over a byte sequence (00_scope.md R10): little-endian, defined only inside it. -/
def memRead (s : List Byte) (i n : Nat) : Option Nat :=
  if i + n ≤ s.length then some (leNat ((s.drop i).take n)) else none

/-- The protocol version of a frame (30_encoding.md R81); no rule reads it. -/
def version (f : List Byte) : Half := le16 (byteAt f 2) (byteAt f 3)

/-- The message type of a frame (30_encoding.md R81). -/
def msgType (f : List Byte) : Byte := byteAt f 4

/-- The 14-byte payload of a frame, its bytes 5 to 18 (30_encoding.md R80, R82). -/
def payload (f : List Byte) : List Byte := (f.drop Config.payloadOff).take Config.payloadLen

/-- `crc_rx`, the CRC field of a frame, its bytes 20 to 23 (30_encoding.md R85). -/
def crcField (f : List Byte) : Word32 :=
  le32 (byteAt f 20) (byteAt f 21) (byteAt f 22) (byteAt f 23)

/-- Sequence number of a payload (30_encoding.md R86). -/
def seqField (p : List Byte) : Byte := byteAt p 0

/-- `raw_h` (30_encoding.md R86, 42_converter.md R142). -/
def rawHeight (p : List Byte) : Int := int16 (le16 (byteAt p 1) (byteAt p 2))

/-- `raw_vv` (30_encoding.md R86, 42_converter.md R143). -/
def rawVv (p : List Byte) : Int := int16 (le16 (byteAt p 3) (byteAt p 4))

/-- `raw_roll` (30_encoding.md R86, 42_converter.md R144). -/
def rawRoll (p : List Byte) : Int := int16 (le16 (byteAt p 5) (byteAt p 6))

/-- `raw_pitch` (30_encoding.md R86, 42_converter.md R145). -/
def rawPitch (p : List Byte) : Int := int16 (le16 (byteAt p 7) (byteAt p 8))

/-- `raw_yaw` (30_encoding.md R86, 42_converter.md R146). -/
def rawYaw (p : List Byte) : Int := int16 (le16 (byteAt p 9) (byteAt p 10))

/-- `vb`, the validity bitfield of a payload (30_encoding.md R84). -/
def validityField (p : List Byte) : Byte := byteAt p 11

end Sys2Proof.Machine
end

