-- ==== Sys2Proof/Syntax.lean ====
section
/-! DEFINITION. The instructions of the CORE: one constructor per row of spec/opcode_table.json. -/

namespace Sys2Proof

/-- The agents that step the CORE (00_scope.md R8; log 6: the transport is part of the HOST). -/
inductive Agent where
  | producer
  | consumer
  | host
  deriving DecidableEq, Repr

/-- The window classes of 30_encoding.md R88. -/
inductive WindowClass where
  | accept
  | crcReject
  | typeReject
  | skip
  deriving DecidableEq, Repr

/-- The three operand formats of the command port (30_encoding.md R90). -/
inductive Format where
  | n
  | l
  | p
  deriving DecidableEq, Repr

/-- The nine command opcodes (30_encoding.md R91). -/
inductive Opcode where
  | reset
  | start
  | stop
  | feed
  | terr
  | drain
  | rdstat
  | crc
  | conv
  deriving DecidableEq, Repr

/-- An instruction: a command of the port (30_encoding.md R91), an autonomous step known by its trace
code (R91), or a classified window of the byte stream (R88), whose operand is the window itself. -/
inductive Instr where
  /-- RESET, 45_session.md R220. -/
  | reset
  /-- START, 45_session.md R221. -/
  | start
  /-- STOP, 45_session.md R222. -/
  | stop
  /-- FEED, 43_synchronizer.md R183: the chunk. -/
  | feed (chunk : List Byte)
  /-- TERR, 43_synchronizer.md R186. -/
  | terr
  /-- DRAIN, 44_channel.md R205. -/
  | drain
  /-- RDSTAT, 45_session.md R224. -/
  | rdstat
  /-- CRC, 41_checksum.md R130: the data bytes. -/
  | crc (data : List Byte)
  /-- CONV, 42_converter.md R156: the payload bytes. -/
  | conv (payload : List Byte)
  /-- SYNC_STEP, 43_synchronizer.md R172. -/
  | syncStep
  /-- OBSERVE_STOP, 43_synchronizer.md R185. -/
  | observeStop
  /-- PUSH, 44_channel.md R201 to R203: its Sample is the one in flight (log 11). -/
  | push
  /-- ACCEPT, 43_synchronizer.md R176: the window. -/
  | accept (window : List Byte)
  /-- CRC_REJECT, 43_synchronizer.md R177: the window. -/
  | crcReject (window : List Byte)
  /-- TYPE_REJECT, 43_synchronizer.md R174: the window. -/
  | typeReject (window : List Byte)
  /-- SKIP, 43_synchronizer.md R173: the window whose first byte is skipped. -/
  | skip (window : List Byte)
  deriving DecidableEq, Repr

/-- The encoding spaces an instruction's bytes stand in: the command port, the trace codes
(30_encoding.md R91) and the wire frame's windows (30_encoding.md R88). -/
inductive Space where
  | port
  | trace
  | wire
  deriving DecidableEq, Repr

/-- Why bytes are no instruction. -/
inductive DecodeReject where
  /-- There is no opcode byte. -/
  | noCommand
  /-- The opcode is reserved in this space (30_encoding.md R92). -/
  | illegalCommand
  /-- The bytes end inside the operands (30_encoding.md R92), or before a whole window. -/
  | truncatedCommand
  deriving DecidableEq, Repr

end Sys2Proof
end

