-- ==== Sys2Proof/Machine/Cks.lean ====
section
/-! DEFINITION. CKS, the CRC-32 generator (41_checksum.md R120 to R125, R129), and the window
classification built on its frame check (30_encoding.md R88). -/

namespace Sys2Proof.Machine

/-- One of the 32 iterations of a word (41_checksum.md R121): shift first, then XOR. -/
def cksBit (acc : Word32) : Word32 :=
  if acc.msb then (acc <<< 1) ^^^ Config.poly else acc <<< 1

/-- A number of iterations, one after another. -/
def cksBits : Nat → Word32 → Word32
  | 0, acc => acc
  | n + 1, acc => cksBits n (cksBit acc)

/-- The step of one word (41_checksum.md R121): XOR it in, then 32 iterations. -/
def cksWord (acc w : Word32) : Word32 := cksBits 32 (acc ^^^ w)

/-- The whole little-endian words of a byte sequence; trailing bytes that complete no word are not
read (41_checksum.md R122, R123). -/
def cksWords : List Byte → List Word32
  | a :: b :: c :: d :: rest => le32 a b c d :: cksWords rest
  | _ => []

/-- `crc32` (41_checksum.md R121): no finalization (R124). -/
def crc32 (s : List Byte) : Word32 := (cksWords s).foldl cksWord Config.crcInit

/-- `crc_ok` for a 24-byte window (41_checksum.md R125). -/
def crcOk (w : List Byte) : Bool := crc32 (w.take Config.crcSpan) == crcField w

/-- The CKS work registers (10_state.md R33), held only during one computation: the accumulator, the
word index, and the iterations of the present word still to run (0 to 32). -/
structure CksWork where
  acc : Word32
  word : Nat
  bit : Nat
  deriving DecidableEq, Repr

/-- The work registers when a computation starts (41_checksum.md R121). -/
def cksStart : CksWork := { acc := Config.crcInit, word := 0, bit := 0 }

/-- One tick of a bit-serial realization (41_checksum.md R129): with no iteration left, XOR in the
next word if there is one; else run one iteration, and pass to the next word after the last. -/
def cksTick (s : List Byte) (r : CksWork) : CksWork :=
  if r.bit = 0 then
    match (cksWords s)[r.word]? with
    | some w => { r with acc := r.acc ^^^ w, bit := 32 }
    | none => r
  else
    { acc := cksBit r.acc,
      word := if r.bit = 1 then r.word + 1 else r.word,
      bit := r.bit - 1 }

/-- A number of ticks. -/
def cksTicks (s : List Byte) : Nat → CksWork → CksWork
  | 0, r => r
  | n + 1, r => cksTicks s n (cksTick s r)

/-- The window starts with the sync marker (43_synchronizer.md R172, the Candidate check). -/
def isMarker (w : List Byte) : Bool := byteAt w 0 == Config.marker0 && byteAt w 1 == Config.marker1

/-- `size_ok` (43_synchronizer.md R175): always true of a window. -/
def sizeOk (w : List Byte) : Bool := w.length == Config.frameLen

/-- The class of a 24-byte window: marker, then type, then (the size check of R175 rejects no
window) the CRC (30_encoding.md R88, 60_exceptions.md R248). -/
def classify (w : List Byte) : WindowClass :=
  if isMarker w then
    if msgType w = Config.supportedType then
      if crcOk w then .accept else .crcReject
    else .typeReject
  else .skip

/-- How many bytes of the stream a window of a class consumes (43_synchronizer.md R173 to R177). -/
def consumedBytes : WindowClass → Nat
  | .skip => 1
  | .typeReject => Config.frameLen
  | .crcReject => Config.frameLen
  | .accept => Config.frameLen

end Sys2Proof.Machine
end

