-- ==== Sys2Proof/Machine/State.lean ====
section
/-! DEFINITION. The state of the CORE (10_state.md R20 to R38) as plain data, with the environment the
one deterministic step needs, and the machine right after reset. -/

namespace Sys2Proof.Machine

/-- Why a step stops with a fault. The CORE itself has no fault in the trap sense
(93_implementation_defined.md, part 1). -/
inductive Fault where
  /-- Raised by the meanings of SYNC_STEP, OBSERVE_STOP, PUSH and the four window classes where the
  spec gives that step no step (43_synchronizer.md R171, R187; 44_channel.md R201). Safe: `step` never
  runs one there, and nothing can be proved of a step that does not exist (log 10). -/
  | noStep
  deriving DecidableEq, Repr

/-- The refusals: 60_exceptions.md R247, and the model's own for an unmodelled instruction. A refused
run has no next state, so nothing can be proved about it: safe. -/
inductive Refusal where
  /-- Raised by `exec` for an instruction without a meaning: none is left. Safe. -/
  | notModelled (mnemonic : String)
  /-- ILLEGAL_COMMAND: a reserved opcode on the port (30_encoding.md R92). Raised by the fetch. Safe. -/
  | illegalCommand
  /-- TRUNCATED_COMMAND: the port ends inside a command (30_encoding.md R92). Raised by the fetch. Safe. -/
  | truncatedCommand
  /-- WRONG_AGENT: a command from another agent than its own (60_exceptions.md R255). Raised by the
  fetch. Safe. -/
  | wrongAgent
  /-- NOT_READING: FEED or TERR when no read takes place (43_synchronizer.md R183, R186). Raised by
  FEED and TERR. Safe. -/
  | notReading
  /-- ALREADY_RUNNING: START in RUN (45_session.md R221). Raised by START. Safe. -/
  | alreadyRunning
  /-- PRECONDITION: a conversion of other than 14 bytes (42_converter.md R140). Raised by CONV and
  ACCEPT; no decoded command reaches it. Safe. -/
  | precondition
  /-- CAP_INVALID: a capacity below 1 (70_reset_and_hazards.md R272). Raised by construction, and by
  PUSH in a state no construction gives (log 17). Safe. -/
  | capInvalid
  deriving DecidableEq, Repr

/-- The PRODUCER's control state (10_state.md R22). -/
inductive PState where
  | idle
  | run
  | halted
  deriving DecidableEq, Repr

/-- The error register (10_state.md R24). -/
inductive Err where
  | none
  | transport
  deriving DecidableEq, Repr

/-- A Sample (10_state.md R30); `none` is the explicit marker `absent` (92_eei_decisions.md D32). -/
structure Sample where
  ts : Time
  seq : Byte
  vmask : BitVec 5
  height : Option Binary64
  vv : Option Binary64
  roll : Option Binary64
  pitch : Option Binary64
  yaw : Option Binary64
  deriving DecidableEq, Repr

/-- An event with the information it records (60_exceptions.md R240). -/
inductive Event where
  | skip (byte : Byte)
  | typeReject (type : Byte)
  | crcReject (computed received : Word32)
  | accept (seq : Byte)
  | chDropOldest (seq : Byte)
  | chDropNewest (seq : Byte)
  | transportError
  | stopped
  deriving DecidableEq, Repr

/-- A value a command returns (30_encoding.md R93). -/
inductive Result where
  /-- CRC: the checksum. -/
  | crc (value : Word32)
  /-- CONV: the Sample. -/
  | sample (value : Sample)
  /-- RDSTAT: STATUS, QCOUNT, BUFLEN. -/
  | status (word : BitVec 16) (qcount buflen : Nat)
  /-- DRAIN: the backlog, oldest first. -/
  | samples (value : List Sample)
  deriving DecidableEq, Repr

/-- Bytes one agent presents on the command port (30_encoding.md R90; log 4). -/
structure Transaction where
  agent : Agent
  bytes : List Byte
  deriving DecidableEq, Repr

/-- Who moves next in the total order of steps (20_memory.md R61; log 5). -/
inductive Turn where
  /-- The PRODUCER's autonomous step. -/
  | producer
  /-- The next command on the port. -/
  | port
  deriving DecidableEq, Repr

/-- The state: the registers of 10_state.md R20, the event log of R32, and the model's own fields
(from `inflight` on), which the spec does not give the machine. -/
structure State where
  /-- `pstate` (10_state.md R22). -/
  pstate : PState
  /-- `stop` (10_state.md R23). -/
  stop : Bool
  /-- `err` (10_state.md R24). -/
  err : Err
  /-- `buf`, index 0 the oldest byte (10_state.md R25). -/
  buf : List Byte
  /-- `q`, index 0 the oldest Sample (10_state.md R28). -/
  q : List Sample
  /-- `CFG_CAP` (10_state.md R34). -/
  cfgCap : Nat
  /-- `CFG_POLICY` (10_state.md R34). -/
  cfgPolicy : Policy
  /-- `evlog`, oldest event first (10_state.md R32). -/
  evlog : List Event
  /-- The Sample the PRODUCER owns between CNV and PUSH (20_memory.md R63; log 11). -/
  inflight : Option Sample
  /-- How many values were drawn from the time source (00_scope.md R10; log 1). -/
  draws : Nat
  /-- The values commands returned, oldest first (30_encoding.md R93; log 13). -/
  results : List Result
  /-- The bytes standing on the command port (30_encoding.md R90; log 4). -/
  port : List Transaction
  /-- The turns the environment has chosen; none left means the eager schedule (log 5). -/
  sched : List Turn
  deriving DecidableEq, Repr

/-- The state at power-on of a CORE constructed with a capacity and a policy (10_state.md R38,
70_reset_and_hazards.md R270, R271). -/
def State.powerOn (cap : Nat) (policy : Policy) : State :=
  { pstate := .idle, stop := false, err := .none, buf := [], q := [],
    cfgCap := cap, cfgPolicy := policy, evlog := [],
    inflight := none, draws := 0, results := [], port := [], sched := [] }

/-- The machine right after reset: power-on of the CORE constructed with the parameters of
00_scope.md R6 (log 3, 23). -/
def State.reset : State := State.powerOn Config.cap Config.overflowPolicy

end Sys2Proof.Machine
end

