-- ==== Sys2Proof/Machine/Ops.lean ====
section
/-! DEFINITION. The named operations every meaning is written over: the event log, the buffer, the
queue, the time source, results; the transport error as one operation, and the way back from it. -/

namespace Sys2Proof.Machine

/-- The outcome of a step of the CORE. -/
abbrev Outcome := Host.Outcome State Fault Refusal

/-- `emit` (00_scope.md R10, 10_state.md R32). -/
def State.emit (e : Event) (s : State) : State := { s with evlog := s.evlog ++ [e] }

/-- `result <- r` of a command (30_encoding.md R93). -/
def State.answer (r : Result) (s : State) : State := { s with results := s.results ++ [r] }

/-- `buf <- buf ++ c` (43_synchronizer.md R183). -/
def State.append (c : List Byte) (s : State) : State := { s with buf := s.buf ++ c }

/-- `buf <- drop(n, buf)` (43_synchronizer.md R173 to R177). -/
def State.consume (n : Nat) (s : State) : State := { s with buf := s.buf.drop n }

/-- The value `draw TIME` gives (00_scope.md R10): a free value. -/
def State.timeNow (s : State) : Time := Config.timeSource s.draws

/-- The draw is taken: the next one is another value. -/
def State.drawn (s : State) : State := { s with draws := s.draws + 1 }

/-- `MemRead(i, n)` of the synchronizer buffer (00_scope.md R10). -/
def State.memRead (i n : Nat) (s : State) : Option Nat := Sys2Proof.Machine.memRead s.buf i n

/-- The window: the first 24 bytes of `buf`, when there are that many (00_scope.md R13). -/
def State.window? (s : State) : Option (List Byte) :=
  if Config.frameLen ≤ s.buf.length then some (s.buf.take Config.frameLen) else none

/-- The PRODUCER takes a Sample in hand (20_memory.md R63). -/
def State.stage (m : Sample) (s : State) : State := { s with inflight := some m }

/-- The Sample in hand has passed to the queue or is lost. -/
def State.unstage (s : State) : State := { s with inflight := none }

/-- `q <- q ++ [s]` (44_channel.md R201). -/
def State.enqueue (m : Sample) (s : State) : State := { s with q := s.q ++ [m] }

/-- `d = q[0]; q <- drop(1, q) ++ [s]; emit CH_DROP_OLDEST(d.seq)` (44_channel.md R202). -/
def State.replaceOldest (m : Sample) (s : State) : State :=
  match s.q with
  | d :: rest => { s with q := rest ++ [m], evlog := s.evlog ++ [.chDropOldest d.seq] }
  | [] => s

/-- PUSH of a Sample (44_channel.md R201 to R204). A queue longer than its capacity, which no run
reaches, counts as full (log 17). -/
def State.pushSample (m : Sample) (s : State) : State :=
  if s.q.length < s.cfgCap then s.enqueue m
  else
    match s.cfgPolicy with
    | .dropOldest => s.replaceOldest m
    | .dropNewest => s.emit (.chDropNewest m.seq)

/-- PUSH as an operation that may be refused: a capacity below 1 has no meaning
(70_reset_and_hazards.md R272; log 17). -/
def pushInto (m : Sample) (s : State) : Outcome :=
  if s.cfgCap < 1 then .refused .capInvalid else .next (s.pushSample m)

/-- `result <- q; q <- []` (44_channel.md R205). -/
def State.drainAll (s : State) : State :=
  { s with q := [], results := s.results ++ [.samples s.q] }

/-- The registers take their reset values; configuration and event log stay (45_session.md R220,
10_state.md R38). -/
def State.resetRegisters (s : State) : State :=
  { s with pstate := .idle, stop := false, err := .none, buf := [], q := [] }

/-- A session is opened (45_session.md R221): the only way out of HALTED into RUN
(60_exceptions.md R252). -/
def State.openSession (s : State) : State :=
  { s with buf := [], stop := false, err := .none, pstate := .run }

/-- The PRODUCER halts (43_synchronizer.md R185, R186). -/
def State.halt (s : State) : State := { s with pstate := .halted }

/-- TAKING THE TRANSPORT ERROR, the one fatal condition (60_exceptions.md R246, R251): nothing is
saved, no vector is taken, the session ends and the error is recorded. -/
def State.raiseTransportError (s : State) : State :=
  { s with pstate := .halted, err := .transport, evlog := s.evlog ++ [.transportError] }

/-- SYNC_STEP is enabled (43_synchronizer.md R172). -/
def State.syncEnabled (s : State) : Bool :=
  decide (s.pstate = .run) && decide (Config.frameLen ≤ s.buf.length)

/-- A read, FEED or TERR, is enabled (43_synchronizer.md R183, R186). -/
def State.readEnabled (s : State) : Bool :=
  decide (s.pstate = .run) && !s.stop && decide (s.buf.length < Config.frameLen)

/-- OBSERVE_STOP is enabled (43_synchronizer.md R185). -/
def State.stopEnabled (s : State) : Bool :=
  decide (s.pstate = .run) && s.stop && decide (s.buf.length < Config.frameLen)

/-- A FEED presented now is held: a session reads, but SYN is at work (43_synchronizer.md R183). -/
def State.feedHeld (s : State) : Bool :=
  decide (s.pstate = .run) && !s.stop && decide (Config.frameLen ≤ s.buf.length)

/-- The window at the front of `buf` is `w`, of class `c`, and SYNC_STEP is enabled: the condition
under which a window's step is one (43_synchronizer.md R172). -/
def State.atWindow (c : WindowClass) (w : List Byte) (s : State) : Bool :=
  s.syncEnabled && decide (s.buf.take Config.frameLen = w) && decide (classify w = c)

end Sys2Proof.Machine
end

