-- ==== Sys2Proof/Machine/Checksum.lean ====
section
/-! DEFINITION. The CRC command (41_checksum.md R130). -/

namespace Sys2Proof.Machine

/-- CRC (41_checksum.md R130): `result <- crc32(d)`; it reads and writes no register. -/
def execCrc (data : List Byte) (s : State) : Outcome := .next (s.answer (.crc (crc32 data)))

end Sys2Proof.Machine
end

