-- ==== Sys2Proof/Machine/Flags.lean ====
section
/-! DEFINITION. The flags of the CORE (10_state.md R37): the validity flags of a payload, the STATUS
word (R35), and the codes a reader of the state sees. -/

namespace Sys2Proof.Machine

/-- `vmask`: bits 4:0 of the validity bitfield (42_converter.md R147, 30_encoding.md R84). -/
def vmaskOf (vb : Byte) : BitVec 5 := vb.extractLsb' 0 5

/-- STATUS.PSTATE (10_state.md R35); 0b11 is never produced. -/
def PState.code : PState → BitVec 2
  | .idle => 0b00#2
  | .run => 0b01#2
  | .halted => 0b10#2

/-- The encoding of CFG_POLICY (10_state.md R34). -/
def policyCode : Policy → BitVec 1
  | .dropOldest => 0#1
  | .dropNewest => 1#1

/-- One flag bit. -/
def flag (b : Bool) : BitVec 1 := BitVec.ofBool b

/-- `quiescent` (10_state.md R21). -/
def State.quiescent (s : State) : Bool := decide (s.buf.length < Config.frameLen)

/-- STATUS.QEMPTY (10_state.md R35). -/
def State.qempty (s : State) : Bool := decide (s.q.length = 0)

/-- STATUS.QFULL (10_state.md R35). -/
def State.qfull (s : State) : Bool := decide (s.q.length = s.cfgCap)

/-- STATUS.TERR (10_state.md R35). -/
def State.terr (s : State) : Bool := decide (s.err = .transport)

/-- The STATUS word (10_state.md R35), bit 15 first: eight reserved bits, POLICY, QFULL, QEMPTY,
QUIESCENT, TERR, STOP, PSTATE. -/
def State.status (s : State) : BitVec 16 :=
  0#8 ++ policyCode s.cfgPolicy ++ flag s.qfull ++ flag s.qempty ++ flag s.quiescent
    ++ flag s.terr ++ flag s.stop ++ s.pstate.code

/-- The code of an event (60_exceptions.md R240). -/
def Event.code : Event → Byte
  | .skip _ => 0x01#8
  | .typeReject _ => 0x02#8
  | .crcReject _ _ => 0x03#8
  | .accept _ => 0x04#8
  | .chDropOldest _ => 0x05#8
  | .chDropNewest _ => 0x06#8
  | .transportError => 0x07#8
  | .stopped => 0x08#8

end Sys2Proof.Machine
end

