-- ==== Sys2Proof/Machine/Session.lean ====
section
/-! DEFINITION. The session interface (45_session.md) and construction (70_reset_and_hazards.md R271,
R272). -/

namespace Sys2Proof.Machine

/-- RESET (45_session.md R220). -/
def execReset (s : State) : Outcome := .next s.resetRegisters

/-- START (45_session.md R221): one session at a time. -/
def execStart (s : State) : Outcome :=
  if s.pstate = .run then .refused .alreadyRunning else .next s.openSession

/-- STOP (45_session.md R222): only the flag. -/
def execStop (s : State) : Outcome := .next { s with stop := true }

/-- RDSTAT (45_session.md R224). -/
def execRdstat (s : State) : Outcome :=
  .next (s.answer (.status s.status s.q.length s.buf.length))

/-- Construction and power-on (70_reset_and_hazards.md R271, R272, R273): a capacity below 1 is
refused. -/
def construct (cap : Nat) (policy : Policy) : Outcome :=
  if cap < 1 then .refused .capInvalid else .next (State.powerOn cap policy)

end Sys2Proof.Machine
end

