-- ==== Sys2Proof/WellFormed.lean ====
section
/-! DEFINITION. Which instructions have an encoding. -/

namespace Sys2Proof

open Sys2Proof.Machine

/-- A window of a class: 24 bytes that 30_encoding.md R88 puts in it. -/
def windowOf (c : WindowClass) (w : List Byte) : Bool :=
  w.length == Config.frameLen && classify w == c

/-- The operands an instruction's encoding admits: chunk and data lengths of 16 bits, 14 payload bytes
(30_encoding.md R90), a window of the class named (R88). -/
def Instr.wellFormed : Instr → Bool
  | .reset => true
  | .start => true
  | .stop => true
  | .feed chunk => chunk.length ≤ 65535
  | .terr => true
  | .drain => true
  | .rdstat => true
  | .crc data => data.length ≤ 65535
  | .conv p => p.length == Config.payloadLen
  | .syncStep => true
  | .observeStop => true
  | .push => true
  | .accept w => windowOf .accept w
  | .crcReject w => windowOf .crcReject w
  | .typeReject w => windowOf .typeReject w
  | .skip w => windowOf .skip w

end Sys2Proof
end

