-- ==== Sys2Proof/Decode.lean ====
section
/-! DEFINITION. The decoders of the three encoding spaces, total on any bytes, and the encoder:
the command port (30_encoding.md R90 to R93), the trace codes (R91), the wire windows (R88). -/

namespace Sys2Proof

open Sys2Proof.Machine

/-- The opcode byte of a command (30_encoding.md R91). -/
def Opcode.code : Opcode → Byte
  | .reset => 0x01#8
  | .start => 0x02#8
  | .stop => 0x03#8
  | .feed => 0x04#8
  | .terr => 0x05#8
  | .drain => 0x06#8
  | .rdstat => 0x07#8
  | .crc => 0x08#8
  | .conv => 0x09#8

/-- The command an opcode byte names; every other byte is reserved (30_encoding.md R91, R92). -/
def opcodeOf (b : Byte) : Option Opcode :=
  match b.toNat with
  | 0x01 => some .reset
  | 0x02 => some .start
  | 0x03 => some .stop
  | 0x04 => some .feed
  | 0x05 => some .terr
  | 0x06 => some .drain
  | 0x07 => some .rdstat
  | 0x08 => some .crc
  | 0x09 => some .conv
  | _ => none

/-- The format of a command (30_encoding.md R90). -/
def Opcode.format : Opcode → Format
  | .reset => .n
  | .start => .n
  | .stop => .n
  | .feed => .l
  | .terr => .n
  | .drain => .n
  | .rdstat => .n
  | .crc => .l
  | .conv => .p

/-- The command an opcode makes of its operand bytes. -/
def Opcode.toInstr (operands : List Byte) : Opcode → Instr
  | .reset => .reset
  | .start => .start
  | .stop => .stop
  | .feed => .feed operands
  | .terr => .terr
  | .drain => .drain
  | .rdstat => .rdstat
  | .crc => .crc operands
  | .conv => .conv operands

/-- Read one command off the front of the port's bytes, with the bytes after it (30_encoding.md R90,
R92, R93). -/
def decodeCommand : List Byte → Except DecodeReject (Instr × List Byte)
  | [] => .error .noCommand
  | op :: bs =>
    match opcodeOf op with
    | none => .error .illegalCommand
    | some o =>
      match o.format with
      | .n => .ok (o.toInstr [], bs)
      | .l =>
        match bs with
        | lo :: hi :: data =>
          if data.length < (le16 lo hi).toNat then .error .truncatedCommand
          else .ok (o.toInstr (data.take (le16 lo hi).toNat), data.drop (le16 lo hi).toNat)
        | _ => .error .truncatedCommand
      | .p =>
        if bs.length < Config.payloadLen then .error .truncatedCommand
        else .ok (o.toInstr (bs.take Config.payloadLen), bs.drop Config.payloadLen)

/-- The length in bytes of the command that starts a byte sequence, from its first three bytes
(30_encoding.md R93); bytes not there count as zero. -/
def commandLength (bs : List Byte) : Option Nat :=
  match opcodeOf (byteAt bs 0) with
  | none => none
  | some o =>
    match o.format with
    | .n => some 1
    | .l => some (3 + (le16 (byteAt bs 1) (byteAt bs 2)).toNat)
    | .p => some (1 + Config.payloadLen)

/-- The autonomous step a trace code names (30_encoding.md R91). -/
def decodeTrace (b : Byte) : Option Instr :=
  match b.toNat with
  | 0x80 => some .syncStep
  | 0x81 => some .observeStop
  | 0x82 => some .push
  | _ => none

/-- The window instruction of a class. -/
def WindowClass.toInstr (w : List Byte) : WindowClass → Instr
  | .accept => .accept w
  | .crcReject => .crcReject w
  | .typeReject => .typeReject w
  | .skip => .skip w

/-- Classify the window at the front of a byte stream; with fewer than 24 bytes there is none
(30_encoding.md R88, 43_synchronizer.md R171). -/
def decodeWindow (s : List Byte) : Option Instr :=
  if s.length < Config.frameLen then none
  else some ((classify (s.take Config.frameLen)).toInstr (s.take Config.frameLen))

/-- The space an instruction's encoding stands in. -/
def Instr.space : Instr → Space
  | .reset => .port
  | .start => .port
  | .stop => .port
  | .feed _ => .port
  | .terr => .port
  | .drain => .port
  | .rdstat => .port
  | .crc _ => .port
  | .conv _ => .port
  | .syncStep => .trace
  | .observeStop => .trace
  | .push => .trace
  | .accept _ => .wire
  | .crcReject _ => .wire
  | .typeReject _ => .wire
  | .skip _ => .wire

/-- The decoder of each space. -/
def decode : Space → List Byte → Except DecodeReject Instr
  | .port, bs => (decodeCommand bs).map Prod.fst
  | .trace, [] => .error .noCommand
  | .trace, b :: _ =>
    match decodeTrace b with
    | some i => .ok i
    | none => .error .illegalCommand
  | .wire, bs =>
    match decodeWindow bs with
    | some i => .ok i
    | none => .error .truncatedCommand

/-- A format L operand field: the length, little-endian, then the bytes (30_encoding.md R90). -/
def lengthPrefixed (data : List Byte) : List Byte := bytes16 (BitVec.ofNat 16 data.length) ++ data

/-- The bytes of an instruction in its space (30_encoding.md R88, R90, R91). -/
def encode : Instr → List Byte
  | .reset => [0x01#8]
  | .start => [0x02#8]
  | .stop => [0x03#8]
  | .feed chunk => 0x04#8 :: lengthPrefixed chunk
  | .terr => [0x05#8]
  | .drain => [0x06#8]
  | .rdstat => [0x07#8]
  | .crc data => 0x08#8 :: lengthPrefixed data
  | .conv p => 0x09#8 :: p
  | .syncStep => [0x80#8]
  | .observeStop => [0x81#8]
  | .push => [0x82#8]
  | .accept w => w
  | .crcReject w => w
  | .typeReject w => w
  | .skip w => w

/-- The agent that issues an instruction (30_encoding.md R91, 60_exceptions.md R255). -/
def Instr.issuer : Instr → Agent
  | .reset => .host
  | .start => .host
  | .stop => .host
  | .feed _ => .host
  | .terr => .host
  | .drain => .consumer
  | .rdstat => .host
  | .crc _ => .host
  | .conv _ => .host
  | .syncStep => .producer
  | .observeStop => .producer
  | .push => .producer
  | .accept _ => .producer
  | .crcReject _ => .producer
  | .typeReject _ => .producer
  | .skip _ => .producer

/-- The first n bytes of a number, the least significant first. -/
def numberBytes : Nat → Nat → List Byte
  | 0, _ => []
  | n + 1, w => BitVec.ofNat 8 w :: numberBytes n (w / 256)

/-- The values of the opcode table that are windows: 40 bits of match and mask, or 24 bytes in all
(30_encoding.md R88; log 20), and the two short values of the SKIP row, whose mask is empty and whose
one field is bit 4. Every other value is a command or a trace code. -/
def isWindowValue (nbits w : Nat) : Bool :=
  nbits == 40 || nbits == 192 || (nbits ≤ 8 && (w == 0 || w == 16))

/-- The window of a table value: the five bytes the table numbers, `w[0]` the most significant of the
40 bits (30_encoding.md R88), then zeros. -/
def layWindow (w : Nat) : List Byte :=
  (numberBytes 5 w).reverse ++ List.replicate 19 0#8

/-- The bytes of a command of a table value: the first byte the least significant, then zeros up to
the length the command has. -/
def layCommand (nbits w : Nat) : List Byte :=
  let head := numberBytes (max 3 (nbits / 8)) (w % 2 ^ nbits)
  let n := (commandLength head).getD 1
  (head ++ List.replicate n 0#8).take n

/-- The instruction the decoders read from a value numbered as spec/opcode_table.json numbers it. -/
def decodeTableWord (nbits w : Nat) : Option Instr :=
  if isWindowValue nbits w then decodeWindow (layWindow w)
  else
    match decodeTrace (BitVec.ofNat 8 w) with
    | some i => some i
    | none =>
      match decodeCommand (layCommand nbits w) with
      | .ok (i, _) => some i
      | .error _ => none

end Sys2Proof
end

