-- ==== Sys2Proof/Machine/Channel.lean ====
section
/-! DEFINITION. CHQ, the bounded queue (44_channel.md): PUSH and DRAIN. -/

namespace Sys2Proof.Machine

/-- PUSH (44_channel.md R201 to R204) of the Sample in flight; with none in flight nothing issues a
PUSH (log 11). -/
def execPush (s : State) : Outcome :=
  match s.inflight with
  | some m => pushInto m s.unstage
  | none => .fault .noStep

/-- DRAIN (44_channel.md R205, R206). -/
def execDrain (s : State) : Outcome := .next s.drainAll

end Sys2Proof.Machine
end

