-- ==== Sys2Proof/Machine/Binary64.lean ====
section
/-! DEFINITION. IEEE 754 binary64 as 00_scope.md R11 uses it: the value nearest to a number, ties to
even, and the rounded product and difference. A finite value is counted in units of 2^-1074, the
smallest positive binary64, so all of it is arithmetic of natural numbers (log 16). -/

namespace Sys2Proof.Machine

/-- One, in units of 2^-1074. -/
def f64Units : Nat := 2 ^ 1074

/-- The exponent field (93_implementation_defined.md G1). -/
def f64Exp (x : Binary64) : Nat := x.toNat / 2 ^ 52 % 2 ^ 11

/-- The fraction field (93_implementation_defined.md G1). -/
def f64Frac (x : Binary64) : Nat := x.toNat % 2 ^ 52

/-- Neither an infinity nor a NaN. -/
def f64Finite (x : Binary64) : Bool := decide (f64Exp x ≠ 2047)

/-- The magnitude of a finite value, in units of 2^-1074. -/
def f64Mag (x : Binary64) : Nat :=
  if f64Exp x = 0 then f64Frac x else (2 ^ 52 + f64Frac x) * 2 ^ (f64Exp x - 1)

/-- The signed value of a finite value, in units of 2^-1074. -/
def f64Val (x : Binary64) : Int := if x.msb then -(f64Mag x : Int) else f64Mag x

/-- The integer nearest to n / d, ties to even. -/
def roundQuotient (n d : Nat) : Nat :=
  if 2 * (n % d) < d then n / d
  else if d < 2 * (n % d) then n / d + 1
  else if n / d % 2 = 0 then n / d
  else n / d + 1

/-- The exponent at which n / d units is rounded: 53 significant bits, or the units themselves. -/
def roundExponent (n d : Nat) : Nat := Nat.log2 (n / d) - 52

/-- The magnitude bits of the binary64 value nearest to n / d units, ties to even; past the largest
finite value, those of infinity. -/
def roundMagnitude (n d : Nat) : Nat :=
  min (roundExponent n d * 2 ^ 52 + roundQuotient n (d * 2 ^ roundExponent n d)) (2047 * 2 ^ 52)

/-- `f64(x)` (00_scope.md R11) of the number with a sign and the magnitude n / d units. -/
def f64Round (neg : Bool) (n d : Nat) : Binary64 :=
  BitVec.ofNat 64 ((if neg then 2 ^ 63 else 0) + roundMagnitude n d)

/-- `f64(x)` of an integer; of zero it is +0. -/
def f64OfInt (x : Int) : Binary64 := f64Round (decide (x < 0)) (x.natAbs * f64Units) 1

/-- `f64(x)` of a decimal literal written as a positive fraction (42_converter.md R148). -/
def f64OfFraction (num den : Nat) : Binary64 := f64Round false (num * f64Units) den

/-- `a ⊗ b` (00_scope.md R11). -/
def f64Mul (a b : Binary64) : Binary64 :=
  if f64Finite a && f64Finite b then
    f64Round (a.msb != b.msb) (f64Mag a * f64Mag b) f64Units
  else Config.nonFiniteProduct a b

/-- The sign of a difference: that of the exact result; an exact zero is +0 unless it is (-0) - (+0). -/
def f64SubNeg (a b : Binary64) : Bool :=
  if f64Val a = f64Val b then a.msb && !b.msb else decide (f64Val a < f64Val b)

/-- `a ⊖ b` (00_scope.md R11). -/
def f64Sub (a b : Binary64) : Binary64 :=
  if f64Finite a && f64Finite b then
    f64Round (f64SubNeg a b) (f64Val a - f64Val b).natAbs 1
  else Config.nonFiniteDifference a b

end Sys2Proof.Machine
end

