-- ==== Sys2Proof/Machine/Converter.lean ====
section
/-! DEFINITION. CNV, the fixed-point scalar converter (42_converter.md), and the CONV command. -/

namespace Sys2Proof.Machine

/-- The height of a raw value (42_converter.md R149): the product is rounded, then the difference. -/
def scaleHeight (raw : Int) : Binary64 := f64Sub (f64Mul Config.kh64 (f64OfInt raw)) Config.off64

/-- The vertical velocity of a raw value (42_converter.md R150). -/
def scaleVv (raw : Int) : Binary64 := f64Mul Config.kvv64 (f64OfInt raw)

/-- Roll, pitch or yaw of a raw value (42_converter.md R151 to R153). -/
def scaleAngle (raw : Int) : Binary64 := f64Mul Config.kang64 (f64OfInt raw)

/-- A field is present exactly when its validity bit is set; an absent field is never computed
(42_converter.md R154). -/
def whenValid (vb : Byte) (bit : Nat) (value : Binary64) : Option Binary64 :=
  if vb.getLsbD bit then some value else none

/-- The Sample of a 14-byte payload (42_converter.md R159). -/
def convert (p : List Byte) (ts : Time) : Sample :=
  { ts := ts
    seq := seqField p
    vmask := vmaskOf (validityField p)
    height := whenValid (validityField p) 0 (scaleHeight (rawHeight p))
    vv := whenValid (validityField p) 1 (scaleVv (rawVv p))
    roll := whenValid (validityField p) 2 (scaleAngle (rawRoll p))
    pitch := whenValid (validityField p) 3 (scaleAngle (rawPitch p))
    yaw := whenValid (validityField p) 4 (scaleAngle (rawYaw p)) }

/-- `cnv(p, ts)` (42_converter.md R140, R159): no meaning for another length than 14. -/
def cnv (p : List Byte) (ts : Time) : Option Sample :=
  if p.length = Config.payloadLen then some (convert p ts) else none

/-- CONV (42_converter.md R156): `ts = draw TIME; result <- cnv(p, ts)`. -/
def execConv (p : List Byte) (s : State) : Outcome :=
  match cnv p s.timeNow with
  | none => .refused .precondition
  | some m => .next (s.drawn.answer (.sample m))

end Sys2Proof.Machine
end

