-- ==== Sys2Proof/Machine/Synchronizer.lean ====
section
/-! DEFINITION. SYN, the frame synchronizer (43_synchronizer.md): SYNC_STEP with its four window
classes, and the PRODUCER's reads and stop. -/

namespace Sys2Proof.Machine

/-- The SKIP case (43_synchronizer.md R173): exactly one byte leaves. -/
def skipWindow (w : List Byte) (s : State) : Outcome :=
  .next ((s.consume (consumedBytes .skip)).emit (.skip (byteAt w 0)))

/-- The TYPE_REJECT case (43_synchronizer.md R174): the CRC is not computed. -/
def typeRejectWindow (w : List Byte) (s : State) : Outcome :=
  .next ((s.consume (consumedBytes .typeReject)).emit (.typeReject (msgType w)))

/-- The CRC_REJECT case (43_synchronizer.md R177). -/
def crcRejectWindow (w : List Byte) (s : State) : Outcome :=
  .next ((s.consume (consumedBytes .crcReject)).emit
    (.crcReject (crc32 (w.take Config.crcSpan)) (crcField w)))

/-- The ACCEPT case (43_synchronizer.md R176): draw, convert, consume, emit, then PUSH within the same
step. -/
def acceptWindow (w : List Byte) (s : State) : Outcome :=
  match cnv (payload w) s.timeNow with
  | none => .refused .precondition
  | some m => execPush (((s.drawn.consume (consumedBytes .accept)).emit (.accept m.seq)).stage m)

/-- The case of a window by its class. -/
def runWindow (w : List Byte) (s : State) : Outcome :=
  match classify w with
  | .accept => acceptWindow w s
  | .crcReject => crcRejectWindow w s
  | .typeReject => typeRejectWindow w s
  | .skip => skipWindow w s

/-- SYNC_STEP (43_synchronizer.md R172). -/
def execSyncStep (s : State) : Outcome :=
  if s.syncEnabled then runWindow (s.buf.take Config.frameLen) s else .fault .noStep

/-- ACCEPT (43_synchronizer.md R176). -/
def execAccept (w : List Byte) (s : State) : Outcome :=
  if s.atWindow .accept w then acceptWindow w s else .fault .noStep

/-- CRC_REJECT (43_synchronizer.md R177). -/
def execCrcReject (w : List Byte) (s : State) : Outcome :=
  if s.atWindow .crcReject w then crcRejectWindow w s else .fault .noStep

/-- TYPE_REJECT (43_synchronizer.md R174). -/
def execTypeReject (w : List Byte) (s : State) : Outcome :=
  if s.atWindow .typeReject w then typeRejectWindow w s else .fault .noStep

/-- SKIP (43_synchronizer.md R173). -/
def execSkip (w : List Byte) (s : State) : Outcome :=
  if s.atWindow .skip w then skipWindow w s else .fault .noStep

/-- FEED (43_synchronizer.md R183, R184): taken by a read; held while SYN is at work (log 9); refused
when no read takes place. -/
def execFeed (chunk : List Byte) (s : State) : Outcome :=
  if s.readEnabled then .next (s.append chunk)
  else if s.feedHeld then .next s
  else .refused .notReading

/-- TERR (43_synchronizer.md R186): "Presented in any other state, TERR is refused" (log 8). -/
def execTerr (s : State) : Outcome :=
  if s.readEnabled then .next s.raiseTransportError else .refused .notReading

/-- OBSERVE_STOP (43_synchronizer.md R185). -/
def execObserveStop (s : State) : Outcome :=
  if s.stopEnabled then .next (s.halt.emit .stopped) else .fault .noStep

end Sys2Proof.Machine
end

