-- ==== Sys2Proof/Machine/Dispatch.lean ====
section
/-! DEFINITION. One arm per instruction. -/

namespace Sys2Proof.Machine

def exec (i : Instr) (s : State) : Host.Outcome State Fault Refusal :=
  match i with
  | .reset => Sys2Proof.Machine.execReset s
  | .start => Sys2Proof.Machine.execStart s
  | .stop => Sys2Proof.Machine.execStop s
  | .feed chunk => Sys2Proof.Machine.execFeed chunk s
  | .terr => Sys2Proof.Machine.execTerr s
  | .drain => Sys2Proof.Machine.execDrain s
  | .rdstat => Sys2Proof.Machine.execRdstat s
  | .crc data => Sys2Proof.Machine.execCrc data s
  | .conv payload => Sys2Proof.Machine.execConv payload s
  | .syncStep => Sys2Proof.Machine.execSyncStep s
  | .observeStop => Sys2Proof.Machine.execObserveStop s
  | .push => Sys2Proof.Machine.execPush s
  | .accept window => Sys2Proof.Machine.execAccept window s
  | .crcReject window => Sys2Proof.Machine.execCrcReject window s
  | .typeReject window => Sys2Proof.Machine.execTypeReject window s
  | .skip window => Sys2Proof.Machine.execSkip window s

end Sys2Proof.Machine
end

