-- ==== Sys2Proof/Machine/Fetch.lean ====
section
/-! DEFINITION. Which step of which agent comes next: the PRODUCER's autonomous steps
(43_synchronizer.md R187), the command port (30_encoding.md R90 to R92, 60_exceptions.md R255), and the
interleaving of the two (20_memory.md R61; log 4, 5, 7, 9). -/

namespace Sys2Proof.Machine

/-- What the machine does next. -/
inductive Fetch where
  /-- Run an instruction in a state from which its bytes and its turn have been taken. -/
  | run (i : Instr) (s : State)
  /-- The command presented is refused. -/
  | refuse (r : Refusal)
  /-- No agent takes a step: the state given is the next one. -/
  | pass (s : State)
  deriving DecidableEq, Repr

/-- The PRODUCER's enabled autonomous step (43_synchronizer.md R187). -/
def State.autonomous (s : State) : Option Instr :=
  if s.syncEnabled then some .syncStep
  else if s.stopEnabled then some .observeStop
  else none

/-- A FEED the PRODUCER does not take yet (43_synchronizer.md R183). -/
def isHeld (i : Instr) (s : State) : Bool :=
  match i with
  | .feed _ => s.feedHeld
  | _ => false

/-- The port once a command has been read off it: the rest of the transaction, if any, stays. -/
def portAfter (agent : Agent) (rest : List Byte) (more : List Transaction) : List Transaction :=
  if rest.isEmpty then more else ⟨agent, rest⟩ :: more

/-- The next command on the port, taken with the turns `sched` left: an empty transaction is passed
over; bytes that are no command, then a command of another agent, are refused; while a FEED is held
the PRODUCER works instead. -/
def portFetch (sched : List Turn) (s : State) : Fetch :=
  match s.port with
  | [] => .pass { s with sched := sched }
  | t :: more =>
    match decodeCommand t.bytes with
    | .error .noCommand => .pass { s with port := more, sched := sched }
    | .error .illegalCommand => .refuse .illegalCommand
    | .error .truncatedCommand => .refuse .truncatedCommand
    | .ok (i, rest) =>
      if i.issuer ≠ t.agent then .refuse .wrongAgent
      else if isHeld i s then .run .syncStep s
      else .run i { s with port := portAfter t.agent rest more, sched := sched }

/-- The PRODUCER's turn: its autonomous step, or none. -/
def producerFetch (sched : List Turn) (s : State) : Fetch :=
  match s.autonomous with
  | some i => .run i { s with sched := sched }
  | none => .pass { s with sched := sched }

/-- The next step in the total order. A Sample in flight is pushed before anything else, since a
SYNC_STEP is atomic (20_memory.md R60; log 11). With no turn listed the schedule is the eager one
(92_eei_decisions.md D30): the PRODUCER's autonomous steps before the next command. -/
def fetch (s : State) : Fetch :=
  if s.inflight.isSome then .run .push s
  else
    match s.sched with
    | .producer :: turns => producerFetch turns s
    | .port :: turns => portFetch turns s
    | [] => if s.autonomous.isSome then producerFetch [] s else portFetch [] s

/-- The commands a PRODUCER's transport read takes (43_synchronizer.md R183, R186). -/
def isReadAnswer (i : Instr) : Bool :=
  match i with
  | .feed _ => true
  | .terr => true
  | _ => false

/-- A run of a command program has ended (70_reset_and_hazards.md R274): every command is taken and
the PRODUCER has no enabled autonomous step. -/
def State.runEnded (s : State) : Bool :=
  s.port.isEmpty && s.autonomous.isNone && s.inflight.isNone

/-- A Sample of zeros with every value absent, to stand in flight when a PUSH is placed. -/
def zeroSample : Sample :=
  { ts := ⟨0⟩, seq := 0#8, vmask := 0#5, height := none, vv := none, roll := none, pitch := none, yaw := none }

/-- Place a window where SYN reads its next one, in a session and with the PRODUCER's turn next. -/
def placeWindow (w : List Byte) (s : State) : State :=
  { s with pstate := .run, buf := w ++ s.buf, inflight := none, sched := .producer :: s.sched }

/-- Place an autonomous step where the machine takes it next (43_synchronizer.md R187): for SYNC_STEP
a session with a window of zeros in `buf`, for OBSERVE_STOP a stopped session that is quiescent, for
PUSH a Sample in flight. -/
def placeStep (i : Instr) (s : State) : State :=
  match i with
  | .push => { s with inflight := some zeroSample }
  | .observeStop =>
    { s with pstate := .run, stop := true, buf := [], inflight := none, sched := .producer :: s.sched }
  | _ => placeWindow (List.replicate Config.frameLen 0#8) s

/-- A session in which a read takes place (43_synchronizer.md R183, R187). -/
def openRead (s : State) : State :=
  { s with pstate := .run, stop := false, buf := if s.quiescent then s.buf else [] }

/-- Place bytes on the command port, presented by the agent whose command they are, with the port's
turn next. FEED and TERR are answers to a PRODUCER's read, so a read is in progress. -/
def placeCommand (bytes : List Byte) (s : State) : State :=
  match decodeCommand bytes with
  | .ok (i, _) =>
    let ready := if isReadAnswer i then openRead s else s
    { ready with port := ⟨i.issuer, bytes⟩ :: s.port, inflight := none, sched := .port :: s.sched }
  | .error _ =>
    { s with port := ⟨.host, bytes⟩ :: s.port, inflight := none, sched := .port :: s.sched }

/-- Place the instruction of a table value (30_encoding.md R88, R91) where the next step takes it. -/
def placeTableWord (nbits w : Nat) (s : State) : State :=
  if isWindowValue nbits w then placeWindow (layWindow w) s
  else
    match decodeTrace (BitVec.ofNat 8 w) with
    | some i => placeStep i s
    | none => placeCommand (layCommand nbits w) s

end Sys2Proof.Machine
end

