-- ==== Sys2Proof/Machine/Step.lean ====
section
/-! DEFINITION. One step of the machine: what comes next in the total order of the agents' steps
(20_memory.md R61), then its meaning. -/

namespace Sys2Proof.Machine

/-- One step. Where no agent has a step the state is the same but for the turn that passed: waiting
for a read is a legal end (43_synchronizer.md R187, 93_implementation_defined.md U24). -/
def step (s : State) : Host.Outcome State Fault Refusal :=
  match fetch s with
  | .run i s' => exec i s'
  | .refuse r => .refused r
  | .pass s' => .next s'

/-- The state in which the next step fetches and runs the instruction of a table value (log 19). -/
def State.withFetchWord (s : State) (nbits w : Nat) : State := placeTableWord nbits w s

end Sys2Proof.Machine
end

