-- ==== Sys2Proof/Machine/Fairness.lean ====
section
/-! DEFINITION. Runs without end and the weak fairness that stands in place of time
(92_eei_decisions.md D22; 60_exceptions.md R256, 70_reset_and_hazards.md R283; log 21). -/

namespace Sys2Proof.Machine

/-- What the agents outside may do between two steps: present further commands on the port and choose
further turns. A CONSUMER or HOST that never does so is one of the cases (log 4, 5). -/
def Presents (s s' : State) : Prop :=
  ∃ commands turns, s' = { s with port := s.port ++ commands, sched := s.sched ++ turns }

/-- A run without end, given by the states its steps are taken from. A refused command ends a run, so
it is in none (00_scope.md R10). -/
def Run (r : Nat → State) : Prop := ∀ n, ∃ t, step (r n) = .next t ∧ Presents t (r (n + 1))

/-- The next step of a state is that of an instruction. -/
def Takes (i : Instr) (s : State) : Prop := ∃ s', fetch s = .run i s'

/-- Weak fairness for an instruction: where it stays enabled from some point on, it is taken at or
after that point. -/
def WeaklyFair (enabled : State → Bool) (i : Instr) (r : Nat → State) : Prop :=
  ∀ n, (∀ m, n ≤ m → enabled (r m) = true) → ∃ m, n ≤ m ∧ Takes i (r m)

/-- DRAIN is enabled in every state (44_channel.md R205). -/
def State.drainEnabled (_ : State) : Bool := true

/-- The fair runs of 92_eei_decisions.md D22: weakly fair for the PRODUCER's SYNC_STEP and OBSERVE_STOP
and for the CONSUMER's DRAIN, which is therefore taken infinitely often; no fairness for the HOST's
commands. -/
def FairRun (r : Nat → State) : Prop :=
  Run r ∧ WeaklyFair State.syncEnabled .syncStep r ∧ WeaklyFair State.stopEnabled .observeStop r ∧
  WeaklyFair State.drainEnabled .drain r

end Sys2Proof.Machine
end

