-- ==== Sys2Proof/Machine/Assembler.lean ====
section
/-! DEFINITION. Command programs: the assembler syntax and its two pseudo-instructions
(30_encoding.md R94 to R96; log 22). The CORE has no program: these are functions from text to commands. -/

namespace Sys2Proof.Machine

/-- The first 20 bytes of a type 0x02 frame (30_encoding.md R80, R82, R95). -/
def frameHead (ver : Half) (seq : Byte) (h vv roll pitch yaw : Half) (valid p12 p13 pad : Byte) :
    List Byte :=
  [Config.marker0, Config.marker1] ++ bytes16 ver ++ [Config.supportedType, seq] ++ bytes16 h
    ++ bytes16 vv ++ bytes16 roll ++ bytes16 pitch ++ bytes16 yaw ++ [valid, p12, p13, pad]

/-- The 24 bytes FEEDFRAME feeds (30_encoding.md R95): the head and its CRC, little-endian. -/
def frameBytes (ver : Half) (seq : Byte) (h vv roll pitch yaw : Half) (valid p12 p13 pad : Byte) :
    List Byte :=
  let head := frameHead ver seq h vv roll pitch yaw valid p12 p13 pad
  head ++ bytes32 (crc32 head)

/-- An integer operand within its bounds, as a pattern of w bits in two's complement. -/
def inRange (w : Nat) (lo hi x : Int) : Option (BitVec w) :=
  if lo ≤ x ∧ x ≤ hi then some (BitVec.ofInt w x) else none

/-- FEEDFRAME with its eight operands and the three that default to 0 (30_encoding.md R95).
DESIGN CHOICE (log 22): each of the three may be left out from the right, so 9 and 10 operands are
taken too; the spec writes the three in one bracket and does not say whether they come together. -/
def feedFrame : List Int → Option Instr
  | [ver, seq, h, vv, roll, pitch, yaw, valid] =>
    feedFrame11 ver seq h vv roll pitch yaw valid 0 0 0
  | [ver, seq, h, vv, roll, pitch, yaw, valid, p12] =>
    feedFrame11 ver seq h vv roll pitch yaw valid p12 0 0
  | [ver, seq, h, vv, roll, pitch, yaw, valid, p12, p13] =>
    feedFrame11 ver seq h vv roll pitch yaw valid p12 p13 0
  | [ver, seq, h, vv, roll, pitch, yaw, valid, p12, p13, pad] =>
    feedFrame11 ver seq h vv roll pitch yaw valid p12 p13 pad
  | _ => none
where
  feedFrame11 (ver seq h vv roll pitch yaw valid p12 p13 pad : Int) : Option Instr := do
    let ver ← inRange 16 0 65535 ver
    let seq ← inRange 8 0 255 seq
    let h ← inRange 16 (-32768) 32767 h
    let vv ← inRange 16 (-32768) 32767 vv
    let roll ← inRange 16 (-32768) 32767 roll
    let pitch ← inRange 16 (-32768) 32767 pitch
    let yaw ← inRange 16 (-32768) 32767 yaw
    let valid ← inRange 8 0 255 valid
    let p12 ← inRange 8 0 255 p12
    let p13 ← inRange 8 0 255 p13
    let pad ← inRange 8 0 255 pad
    return .feed (frameBytes ver seq h vv roll pitch yaw valid p12 p13 pad)

/-- RESTART (30_encoding.md R96). -/
def restart : List Instr := [.stop, .start]

/-- Split a text at every character that satisfies a test. -/
def splitText (sep : Char → Bool) : List Char → List (List Char)
  | [] => [[]]
  | c :: cs =>
    match splitText sep cs with
    | [] => [[c]]
    | t :: ts => if sep c then [] :: t :: ts else (c :: t) :: ts

/-- A space, a tab or a carriage return. -/
def isBlank (c : Char) : Bool := c == ' ' || c == '\t' || c == '\r'

/-- The words of a text. -/
def words (cs : List Char) : List (List Char) := (splitText isBlank cs).filter (fun t => !t.isEmpty)

/-- The value of a digit. -/
def digitValue (c : Char) : Option Nat :=
  if '0' ≤ c ∧ c ≤ '9' then some (c.toNat - 48)
  else if 'A' ≤ c ∧ c ≤ 'F' then some (c.toNat - 55)
  else if 'a' ≤ c ∧ c ≤ 'f' then some (c.toNat - 87)
  else none

/-- The number one or more digits write in a base. -/
def readDigits (base : Nat) : Nat → List Char → Option Nat
  | acc, [] => some acc
  | acc, c :: cs =>
    match digitValue c with
    | some d => if d < base then readDigits base (base * acc + d) cs else none
    | none => none

/-- An integer in decimal or 0x hexadecimal (30_encoding.md R95). -/
def readInteger (cs : List Char) : Option Int :=
  match cs with
  | '-' :: '0' :: 'x' :: d :: ds => (readDigits 16 0 (d :: ds)).map fun n => -(n : Int)
  | '0' :: 'x' :: d :: ds => (readDigits 16 0 (d :: ds)).map fun n => (n : Int)
  | '-' :: d :: ds => (readDigits 10 0 (d :: ds)).map fun n => -(n : Int)
  | d :: ds => (readDigits 10 0 (d :: ds)).map fun n => (n : Int)
  | [] => none

/-- An operand between commas: one integer with blanks around it. -/
def readOperand (cs : List Char) : Option Int :=
  match words cs with
  | [t] => readInteger t
  | _ => none

/-- A byte as two hexadecimal digits (30_encoding.md R94). -/
def readByte (cs : List Char) : Option Byte :=
  match cs with
  | [_, _] => (readDigits 16 0 cs).map (BitVec.ofNat 8)
  | _ => none

/-- The command a mnemonic writes (30_encoding.md R94): upper case only. -/
def mnemonicOf (cs : List Char) : Option Opcode :=
  if cs = ['R', 'E', 'S', 'E', 'T'] then some .reset
  else if cs = ['S', 'T', 'A', 'R', 'T'] then some .start
  else if cs = ['S', 'T', 'O', 'P'] then some .stop
  else if cs = ['F', 'E', 'E', 'D'] then some .feed
  else if cs = ['T', 'E', 'R', 'R'] then some .terr
  else if cs = ['D', 'R', 'A', 'I', 'N'] then some .drain
  else if cs = ['R', 'D', 'S', 'T', 'A', 'T'] then some .rdstat
  else if cs = ['C', 'R', 'C'] then some .crc
  else if cs = ['C', 'O', 'N', 'V'] then some .conv
  else none

/-- The number of operand bytes a format admits (30_encoding.md R90, R94). -/
def operandCountOk : Format → Nat → Bool
  | .n, k => k == 0
  | .l, k => decide (k ≤ 65535)
  | .p, k => k == Config.payloadLen

/-- One line without its comment: nothing, a command, or a pseudo-instruction. -/
def assembleWords : List (List Char) → Option (List Instr)
  | [] => some []
  | m :: operands =>
    if m = ['F', 'E', 'E', 'D', 'F', 'R', 'A', 'M', 'E'] then
      (((splitText (· == ',') ([' '].intercalate operands)).mapM readOperand).bind feedFrame).map fun i => [i]
    else if m = ['R', 'E', 'S', 'T', 'A', 'R', 'T'] then
      if operands.isEmpty then some restart else none
    else
      match mnemonicOf m, operands.mapM readByte with
      | some o, some bytes =>
        if operandCountOk o.format bytes.length then some [o.toInstr bytes] else none
      | _, _ => none

/-- A command program (30_encoding.md R94): one command a line, a comment from `;` on. -/
def assemble (text : List Char) : Option (List Instr) :=
  ((splitText (· == '\n') text).mapM
    (fun line => assembleWords (words (line.takeWhile (fun c => c != ';'))))).map List.flatten

/-- The bytes a program assembles to. -/
def programBytes (program : List Instr) : List Byte := (program.map encode).flatten

/-- A program standing on the port, each command presented by its issuing agent (30_encoding.md R91). -/
def loadProgram (program : List Instr) (s : State) : State :=
  { s with port := s.port ++ program.map fun i => ⟨i.issuer, encode i⟩ }

end Sys2Proof.Machine
end

