-- ==== Sys2Proof/Safety.lean ====
section
/-! DEFINITION. What a good state and a good run are, in the terms the statements use. -/

namespace Sys2Proof.Machine

/-- A Sample's value is present exactly when its validity bit is set (10_state.md R31). -/
abbrev Sample.Coherent (m : Sample) : Prop :=
  m.height.isSome = m.vmask.getLsbD 0 ∧ m.vv.isSome = m.vmask.getLsbD 1 ∧
  m.roll.isSome = m.vmask.getLsbD 2 ∧ m.pitch.isSome = m.vmask.getLsbD 3 ∧
  m.yaw.isSome = m.vmask.getLsbD 4

/-- The invariant of the state between steps: the capacity is at least 1 (10_state.md R20) and never
exceeded (R28); outside RUN fewer than 24 bytes are buffered (43_synchronizer.md R187); no Sample is
in flight (20_memory.md R60); every queued Sample is coherent (10_state.md R31); a recorded error
belongs to a halted session (10_state.md R24); an idle CORE holds no byte and no Sample (R22, R38). -/
abbrev State.Inv (s : State) : Prop :=
  1 ≤ s.cfgCap ∧ s.q.length ≤ s.cfgCap ∧
  (s.pstate ≠ .run → s.buf.length < Config.frameLen) ∧
  s.inflight = none ∧ (∀ m ∈ s.q, m.Coherent) ∧
  (s.err = .transport → s.pstate = .halted) ∧
  (s.pstate = .idle → s.buf = [] ∧ s.q = [])

/-- A Sample without its timestamp (43_synchronizer.md R180: "every Sample field except ts"). -/
def Sample.untimed (m : Sample) : Sample := { m with ts := ⟨0⟩ }

/-- SYNC_STEPs until `buf` is quiescent, at most as many as the fuel (43_synchronizer.md R170). -/
def syncAll : Nat → State → Outcome
  | 0, s => .next s
  | n + 1, s =>
    if s.syncEnabled then
      match exec .syncStep s with
      | .next t => syncAll n t
      | .fault r => .fault r
      | .refused r => .refused r
    else .next s

/-- All the SYNC_STEPs that follow a read: from L bytes at most L - 23 (43_synchronizer.md R178). -/
def quiesce (s : State) : Outcome := syncAll (s.buf.length - 23) s

/-- FEED each chunk and let SYN come to rest after each (92_eei_decisions.md D30). -/
def feedAll : List (List Byte) → State → Outcome
  | [], s => .next s
  | c :: cs, s =>
    match exec (.feed c) s with
    | .next t =>
      match quiesce t with
      | .next u => feedAll cs u
      | .fault r => .fault r
      | .refused r => .refused r
    | .fault r => .fault r
    | .refused r => .refused r

/-- The windows SYN classifies in a byte stream, one after another, and the bytes it leaves
(43_synchronizer.md R179): the next one starts where the class of this one says. The fuel bounds their
number. -/
def windowsOf : Nat → List Byte → List (List Byte) × List Byte
  | 0, s => ([], s)
  | n + 1, s =>
    if s.length < Config.frameLen then ([], s)
    else
      let w := s.take Config.frameLen
      let rest := windowsOf n (s.drop (consumedBytes (classify w)))
      (w :: rest.1, rest.2)

/-- The event a window's SYNC_STEP records first (60_exceptions.md R240, R248). -/
def windowEvent (w : List Byte) : Event :=
  match classify w with
  | .accept => .accept (seqField (payload w))
  | .crcReject => .crcReject (crc32 (w.take Config.crcSpan)) (crcField w)
  | .typeReject => .typeReject (msgType w)
  | .skip => .skip (byteAt w 0)

/-- A number of machine steps, up to the first fault or refusal. -/
def steps : Nat → State → Outcome
  | 0, s => .next s
  | n + 1, s =>
    match step s with
    | .next t => steps n t
    | .fault r => .fault r
    | .refused r => .refused r

/-- Is an event an ACCEPT? -/
def Event.isAccept : Event → Bool
  | .accept _ => true
  | _ => false

/-- Is an event the loss of a Sample at a full queue? -/
def Event.isDrop : Event → Bool
  | .chDropOldest _ => true
  | .chDropNewest _ => true
  | _ => false

/-- The Samples a returned value delivers to the CONSUMER. -/
def Result.drained : Result → List Sample
  | .samples l => l
  | _ => []

/-- The events but for the losses at a full queue: one for each SYNC_STEP and each end of a session. -/
def State.stepEvents (s : State) : List Event := s.evlog.filter (fun e => !e.isDrop)

/-- The number of ACCEPT events. -/
def State.accepts (s : State) : Nat := s.evlog.countP Event.isAccept

/-- The number of drop events. -/
def State.drops (s : State) : Nat := s.evlog.countP Event.isDrop

/-- The Samples all DRAINs returned, oldest first. -/
def State.drainedSamples (s : State) : List Sample := (s.results.map Result.drained).flatten

/-- The Samples accounted for: drained, lost at a full queue, or still queued (44_channel.md R208). -/
def State.accounted (s : State) : Nat := s.drainedSamples.length + s.drops + s.q.length

/-- The magnitude of the largest finite binary64 value, in units of 2^-1074. -/
def f64MaxMag : Nat := f64Mag 0x7FEFFFFFFFFFFFFF#64

/-- A binary64 value is a finite one nearest to the number num / den, counted in units of 2^-1074, and
where another is as near its fraction is even (00_scope.md R11). -/
def NearestEven (x : Binary64) (num : Int) (den : Nat) : Prop :=
  f64Finite x = true ∧ ∀ y : Binary64, f64Finite y = true →
    |f64Val x * den - num| ≤ |f64Val y * den - num| ∧
    (|f64Val x * den - num| = |f64Val y * den - num| → f64Val y ≠ f64Val x → f64Frac x % 2 = 0)

/-- The XOR of two byte sequences, byte by byte (41_checksum.md R127). -/
def xorBytes (a b : List Byte) : List Byte := List.zipWith (fun x y => x ^^^ y) a b

end Sys2Proof.Machine
end

