-- ==== Sys2Proof/Certificates/Slice0/Obligations.lean ====
section
/-! DEFINITION. The statements for the provers. -/

open Sys2Proof Sys2Proof.Machine

/-! ### Reset, construction, session -/

/-- 10_state.md R38: what power-on leaves and what RESET leaves, for every capacity and policy. -/
def Obligations.PowerOnAndResetLeaveTheResetState : Prop :=
  (∀ cap policy,
    (State.powerOn cap policy).pstate = .idle ∧ (State.powerOn cap policy).stop = false ∧
    (State.powerOn cap policy).err = .none ∧ (State.powerOn cap policy).buf = [] ∧
    (State.powerOn cap policy).q = [] ∧ (State.powerOn cap policy).cfgCap = cap ∧
    (State.powerOn cap policy).cfgPolicy = policy ∧ (State.powerOn cap policy).evlog = [] ∧
    (1 ≤ cap → (State.powerOn cap policy).status
      = 0x0030#16 ||| ((policyCode policy).zeroExtend 16 <<< 7))) ∧
  (∀ s : State, ∃ t, exec .reset s = .next t ∧
    t.pstate = .idle ∧ t.stop = false ∧ t.err = .none ∧ t.buf = [] ∧ t.q = [] ∧
    t.cfgCap = s.cfgCap ∧ t.cfgPolicy = s.cfgPolicy ∧ t.evlog = s.evlog ∧
    (1 ≤ s.cfgCap → t.status = 0x0030#16 ||| ((policyCode s.cfgPolicy).zeroExtend 16 <<< 7)))

/-- 45_session.md R220: RESET in every state, with its whole frame. -/
def Obligations.ResetClearsRegistersAndKeepsTheRest : Prop :=
  ∀ s : State,
    exec .reset s
      = .next { s with pstate := .idle, stop := false, err := .none, buf := [], q := [] } ∧
    (1 ≤ s.cfgCap →
      ({ s with pstate := .idle, stop := false, err := .none, buf := [], q := [] } : State).status
        = 0x0030#16 ||| ((policyCode s.cfgPolicy).zeroExtend 16 <<< 7))

/-- 70_reset_and_hazards.md R272: a capacity below 1 is refused, any other is constructed. -/
def Obligations.ConstructionNeedsACapacity : Prop :=
  (∀ policy, construct 0 policy = .refused .capInvalid) ∧
  (∀ cap policy, 1 ≤ cap → construct cap policy = .next (State.powerOn cap policy))

/-- 45_session.md R221: START outside RUN, and its refusal in RUN. -/
def Obligations.StartOpensASessionOutsideRun : Prop :=
  ∀ s : State,
    (s.pstate = .idle ∨ s.pstate = .halted →
      exec .start s = .next { s with buf := [], stop := false, err := .none, pstate := .run } ∧
      ({ s with buf := [], stop := false, err := .none, pstate := .run } : State).status.extractLsb' 0 5
        = 0b10001#5) ∧
    (s.pstate = .run → exec .start s = .refused .alreadyRunning)

/-- 45_session.md R222: STOP only sets the flag; it does so once. -/
def Obligations.StopSetsOnlyTheFlag : Prop :=
  ∀ s : State,
    exec .stop s = .next { s with stop := true } ∧
    exec .stop { s with stop := true } = .next { s with stop := true } ∧
    ({ s with stop := true } : State).status.getLsbD 2 = true ∧
    (s.pstate = .run → s.buf.length < 24 →
      ({ s with stop := true } : State).autonomous = some .observeStop)

/-- 45_session.md R224: RDSTAT returns the STATUS word and the two lengths and writes no register. The
returned value stands in the model's own `results` (log 13). -/
def Obligations.RdstatReturnsStatusAndLengths : Prop :=
  ∀ s : State,
    exec .rdstat s
      = .next { s with results := s.results ++ [.status s.status s.q.length s.buf.length] }

/-- 10_state.md R35: every field of the STATUS word. -/
def Obligations.StatusWordHoldsItsFields : Prop :=
  ∀ s : State,
    s.status.extractLsb' 0 2
      = (match s.pstate with | .idle => 0b00#2 | .run => 0b01#2 | .halted => 0b10#2) ∧
    s.status.getLsbD 2 = s.stop ∧
    (s.status.getLsbD 3 = true ↔ s.err = .transport) ∧
    (s.status.getLsbD 4 = true ↔ s.buf.length < 24) ∧
    (s.status.getLsbD 5 = true ↔ s.q.length = 0) ∧
    (s.status.getLsbD 6 = true ↔ s.q.length = s.cfgCap) ∧
    (s.status.getLsbD 7 = true ↔ s.cfgPolicy = .dropNewest) ∧
    s.status.extractLsb' 8 8 = 0#8

/-! ### The PRODUCER's reads and stop -/

/-- 43_synchronizer.md R183, R184: FEED taken, held or refused. How a FEED is held is the model's
choice (log 4, 9): the machine's step on the port's turn is SYN's and the FEED stays on the port. -/
def Obligations.FeedAppendsIsHeldOrRefused : Prop :=
  ∀ (s : State) (c : List Byte),
    (s.pstate = .run ∧ s.stop = false ∧ s.buf.length < 24 →
      exec (.feed c) s = .next { s with buf := s.buf ++ c } ∧
      exec (.feed []) s = .next s) ∧
    (s.pstate = .run ∧ s.stop = false ∧ 24 ≤ s.buf.length →
      exec (.feed c) s = .next s ∧
      ∀ rest more turns, s.inflight = none → s.sched = .port :: turns →
        s.port = ⟨.host, encode (.feed c) ++ rest⟩ :: more → c.length ≤ 65535 →
        step s = exec .syncStep s ∧ ∀ t, step s = .next t → t.port = s.port) ∧
    (s.pstate ≠ .run ∨ s.stop = true → exec (.feed c) s = .refused .notReading)

/-- 43_synchronizer.md R186: TERR takes the transport error, or is refused in any other state (log 8:
the rule's own words against the shorter table of 60_exceptions.md R247). -/
def Obligations.TerrEndsTheSession : Prop :=
  ∀ s : State,
    (s.pstate = .run ∧ s.stop = false ∧ s.buf.length < 24 →
      exec .terr s = .next { s with
        pstate := .halted, err := .transport, evlog := s.evlog ++ [.transportError] } ∧
      ({ s with pstate := .halted, err := .transport,
                evlog := s.evlog ++ [.transportError] } : State).status.getLsbD 3 = true) ∧
    (¬ (s.pstate = .run ∧ s.stop = false ∧ s.buf.length < 24) →
      exec .terr s = .refused .notReading)

/-- 43_synchronizer.md R185: OBSERVE_STOP, its effect and that it has no step elsewhere; that a step
which does not exist is the fault `noStep` is the model's choice (log 10). -/
def Obligations.ObserveStopHalts : Prop :=
  ∀ s : State,
    (s.pstate = .run ∧ s.stop = true ∧ s.buf.length < 24 →
      exec .observeStop s = .next { s with pstate := .halted, evlog := s.evlog ++ [.stopped] }) ∧
    (¬ (s.pstate = .run ∧ s.stop = true ∧ s.buf.length < 24) →
      exec .observeStop s = .fault .noStep)

/-- 43_synchronizer.md R187: which PRODUCER steps are enabled. The invariant is the model's own
(Safety.lean) and is stated below. A read (FEED of any chunk, or TERR) is
taken exactly in the second row of the table; outside RUN at most 23 bytes are buffered. -/
def Obligations.ProducerStepsAreEnabledByTheTable : Prop :=
  ∀ s : State, s.Inv →
    ((∃ t, exec .syncStep s = .next t) ↔ s.pstate = .run ∧ 24 ≤ s.buf.length) ∧
    ((∀ c, exec (.feed c) s = .next { s with buf := s.buf ++ c }) ↔
      s.pstate = .run ∧ s.stop = false ∧ s.buf.length < 24) ∧
    ((∃ t, exec .terr s = .next t) ↔ s.pstate = .run ∧ s.stop = false ∧ s.buf.length < 24) ∧
    ((∃ t, exec .observeStop s = .next t) ↔ s.pstate = .run ∧ s.stop = true ∧ s.buf.length < 24) ∧
    (s.pstate ≠ .run → s.buf.length < 24)

/-! ### SYNC_STEP and the window classes -/

/-- 43_synchronizer.md R173: without the marker exactly one byte leaves, as SYNC_STEP and as SKIP (the
window classes as instructions: log 12). -/
def Obligations.SkipDropsExactlyOneByte : Prop :=
  ∀ s : State, s.pstate = .run → 24 ≤ s.buf.length →
    (byteAt s.buf 0 ≠ 0x4E#8 ∨ byteAt s.buf 1 ≠ 0x45#8) →
    exec .syncStep s
      = .next { s with buf := s.buf.drop 1, evlog := s.evlog ++ [.skip (byteAt s.buf 0)] } ∧
    exec (.skip (s.buf.take 24)) s
      = .next { s with buf := s.buf.drop 1, evlog := s.evlog ++ [.skip (byteAt s.buf 0)] }

/-- 43_synchronizer.md R174: the marker with a type other than 0x02 loses 24 bytes, as SYNC_STEP
and as TYPE_REJECT (the window classes as instructions: log 12). -/
def Obligations.TypeRejectDropsTheWindow : Prop :=
  ∀ s : State, s.pstate = .run → 24 ≤ s.buf.length →
    byteAt s.buf 0 = 0x4E#8 → byteAt s.buf 1 = 0x45#8 → byteAt s.buf 4 ≠ 0x02#8 →
    exec .syncStep s
      = .next { s with buf := s.buf.drop 24, evlog := s.evlog ++ [.typeReject (byteAt s.buf 4)] } ∧
    exec (.typeReject (s.buf.take 24)) s
      = .next { s with buf := s.buf.drop 24, evlog := s.evlog ++ [.typeReject (byteAt s.buf 4)] }

/-- 43_synchronizer.md R177: a wrong CRC loses 24 bytes and records both values, as SYNC_STEP and as
CRC_REJECT (the window classes as instructions: log 12). -/
def Obligations.CrcRejectDropsTheWindow : Prop :=
  ∀ s : State, s.pstate = .run → 24 ≤ s.buf.length →
    byteAt s.buf 0 = 0x4E#8 → byteAt s.buf 1 = 0x45#8 → byteAt s.buf 4 = 0x02#8 →
    crc32 (s.buf.take 20)
      ≠ le32 (byteAt s.buf 20) (byteAt s.buf 21) (byteAt s.buf 22) (byteAt s.buf 23) →
    let event := Event.crcReject (crc32 (s.buf.take 20))
      (le32 (byteAt s.buf 20) (byteAt s.buf 21) (byteAt s.buf 22) (byteAt s.buf 23))
    exec .syncStep s = .next { s with buf := s.buf.drop 24, evlog := s.evlog ++ [event] } ∧
    exec (.crcReject (s.buf.take 24)) s
      = .next { s with buf := s.buf.drop 24, evlog := s.evlog ++ [event] }

/-- 43_synchronizer.md R176: an accepted frame is stamped, converted, consumed, recorded and pushed in
one step. The timestamp is the free value of the draw (log 1); the ACCEPT of a window as an instruction is
log 12. `pushSample` is the PUSH of
44_channel.md R201 to R203, stated on its own below. -/
def Obligations.AcceptConvertsAndPushes : Prop :=
  ∀ s : State, s.pstate = .run → 24 ≤ s.buf.length → 1 ≤ s.cfgCap →
    byteAt s.buf 0 = 0x4E#8 → byteAt s.buf 1 = 0x45#8 → byteAt s.buf 4 = 0x02#8 →
    crc32 (s.buf.take 20)
      = le32 (byteAt s.buf 20) (byteAt s.buf 21) (byteAt s.buf 22) (byteAt s.buf 23) →
    let m := convert ((s.buf.drop 5).take 14) (Config.timeSource s.draws)
    let t := ({ s with buf := s.buf.drop 24, evlog := s.evlog ++ [.accept (byteAt s.buf 5)],
                       draws := s.draws + 1, inflight := none } : State).pushSample m
    exec .syncStep s = .next t ∧ exec (.accept (s.buf.take 24)) s = .next t

/-- 30_encoding.md R88, 43_synchronizer.md R172: one SYNC_STEP is the step of the instruction that the
window at the front of `buf` decodes to, and a step of another window or class does not exist. That a
window class is an instruction and a step that does not exist a fault is the model's choice (log 10,
12). -/
def Obligations.SyncStepRunsTheWindowInstruction : Prop :=
  ∀ s : State, s.pstate = .run →
    (∀ i, decodeWindow s.buf = some i → exec .syncStep s = exec i s) ∧
    (decodeWindow s.buf = none → exec .syncStep s = .fault .noStep) ∧
    (∀ w, decodeWindow s.buf ≠ some (.accept w) → exec (.accept w) s = .fault .noStep) ∧
    (∀ w, decodeWindow s.buf ≠ some (.crcReject w) → exec (.crcReject w) s = .fault .noStep) ∧
    (∀ w, decodeWindow s.buf ≠ some (.typeReject w) → exec (.typeReject w) s = .fault .noStep) ∧
    (∀ w, decodeWindow s.buf ≠ some (.skip w) → exec (.skip w) s = .fault .noStep)

/-- 30_encoding.md R88: the masks and matches of the table, over the 40-bit value with `w[0]` most
significant, in priority order. -/
def Obligations.WindowClassesFollowMasksAndMatches : Prop :=
  ∀ w : List Byte, w.length = 24 →
    let v : BitVec 40 :=
      byteAt w 0 ++ byteAt w 1 ++ byteAt w 2 ++ byteAt w 3 ++ byteAt w 4
    (classify w = .accept ↔ v &&& 0xFFFF0000FF#40 = 0x4E45000002#40 ∧ crcOk w = true) ∧
    (classify w = .crcReject ↔ v &&& 0xFFFF0000FF#40 = 0x4E45000002#40 ∧ crcOk w = false) ∧
    (classify w = .typeReject ↔
      v &&& 0xFFFF000000#40 = 0x4E45000000#40 ∧ v &&& 0xFFFF0000FF#40 ≠ 0x4E45000002#40) ∧
    (classify w = .skip ↔ v &&& 0xFFFF000000#40 ≠ 0x4E45000000#40)

/-- 43_synchronizer.md R178: every SYNC_STEP removes 1 or 24 bytes from the front, and L bytes need at
most L - 23 steps to become quiescent. -/
def Obligations.SyncStepsMakeProgressToQuiescence : Prop :=
  (∀ s t : State, exec .syncStep s = .next t →
    (t.buf = s.buf.drop 1 ∨ t.buf = s.buf.drop 24) ∧ t.buf.length < s.buf.length) ∧
  (∀ s : State, s.pstate = .run → 1 ≤ s.cfgCap →
    ∃ t, syncAll (s.buf.length - 23) s = .next t ∧ t.buf.length < 24 ∧ t.pstate = .run)

/-- 43_synchronizer.md R179: the SYNC_STEPs taken from a buffer are those of its windows, one after
another, whatever the queue loses meanwhile, and the bytes left are those after the last window. -/
def Obligations.TheStreamDeterminesTheSteps : Prop :=
  ∀ s : State, s.pstate = .run → 1 ≤ s.cfgCap →
    ∃ t, quiesce s = .next t ∧ t.buf.length < 24 ∧
      t.buf = (windowsOf s.buf.length s.buf).2 ∧
      t.stepEvents = s.stepEvents ++ (windowsOf s.buf.length s.buf).1.map windowEvent

/-- 43_synchronizer.md R180: however a stream is cut into chunks, the events, the bytes left and every
Sample but for its timestamp are the same, whatever the time source has given before (the two runs
start from different draw counts: log 1, 24). Chunks past the 65535 bytes a command can carry are fed
too (log 25). The CONSUMER takes no step in either. -/
def Obligations.ChunkingDoesNotMatter : Prop :=
  ∀ (s : State) (n : Nat) (chunks : List (List Byte)),
    s.pstate = .run → s.stop = false → s.buf.length < 24 → 1 ≤ s.cfgCap →
    ∃ t u, feedAll chunks s = .next t ∧ feedAll [chunks.flatten] { s with draws := n } = .next u ∧
      t.buf = u.buf ∧ t.evlog = u.evlog ∧ t.q.map Sample.untimed = u.q.map Sample.untimed ∧
      t.pstate = u.pstate ∧ t.stop = u.stop ∧ t.err = u.err

/-- 43_synchronizer.md R182: N bytes without a marker pair before a valid frame give N skips and
exactly one Sample. Its timestamp is the free value of the draw (log 1). -/
def Obligations.NoiseBeforeAFrameIsSkipped : Prop :=
  ∀ (s : State) (noise frame : List Byte),
    s.pstate = .run → s.inflight = none → s.q.length < s.cfgCap →
    frame.length = 24 → classify frame = .accept →
    (∀ j, j + 1 < noise.length → ¬ (byteAt noise j = 0x4E#8 ∧ byteAt noise (j + 1) = 0x45#8)) →
    quiesce { s with buf := noise ++ frame }
      = .next { s with
          buf := [],
          evlog := s.evlog ++ noise.map Event.skip ++ [.accept (byteAt frame 5)],
          q := s.q ++ [convert ((frame.drop 5).take 14) (Config.timeSource s.draws)],
          draws := s.draws + 1 }

/-- 43_synchronizer.md R188: two valid frames back to back give their two Samples in order. Their
timestamps are the free values of the draws (log 1). -/
def Obligations.BackToBackFramesGiveBothSamples : Prop :=
  ∀ (s : State) (f g : List Byte),
    s.pstate = .run → s.inflight = none → s.q.length + 1 < s.cfgCap →
    f.length = 24 → classify f = .accept → g.length = 24 → classify g = .accept →
    quiesce { s with buf := f ++ g }
      = .next { s with
          buf := [],
          evlog := s.evlog ++ [.accept (byteAt f 5), .accept (byteAt g 5)],
          q := s.q ++ [convert ((f.drop 5).take 14) (Config.timeSource s.draws),
                       convert ((g.drop 5).take 14) (Config.timeSource (s.draws + 1))],
          draws := s.draws + 2 }

/-- 43_synchronizer.md R189: no step of the machine produces a Sample, in the queue or as an ACCEPT
event, from a window without the marker, the type 0x02 and a matching CRC. -/
def Obligations.NothingIsAcceptedWithoutAMatchingCrc : Prop :=
  ∀ s t : State, s.inflight = none → step s = .next t →
    (t.accepts ≠ s.accepts ∨ ∃ m ∈ t.q, m ∉ s.q) →
    s.pstate = .run ∧ 24 ≤ s.buf.length ∧
    byteAt s.buf 0 = 0x4E#8 ∧ byteAt s.buf 1 = 0x45#8 ∧ byteAt s.buf 4 = 0x02#8 ∧
    crc32 (s.buf.take 20)
      = le32 (byteAt s.buf 20) (byteAt s.buf 21) (byteAt s.buf 22) (byteAt s.buf 23)

/-- 45_session.md R223, in the eager schedule (the model's choice, log 5): after STOP the PRODUCER
takes at most `len(buf) - 23` SYNC_STEPs, no command, and then halts. -/
def Obligations.StopTakesEffectWithinABound : Prop :=
  ∀ s : State, s.pstate = .run → s.stop = true → s.sched = [] → s.inflight = none → 1 ≤ s.cfgCap →
    ∃ k t, k ≤ (s.buf.length - 23) + 1 ∧ steps k s = .next t ∧
      t.pstate = .halted ∧ t.port = s.port ∧ t.results = s.results ∧ t.buf.length < 24

/-! ### CHQ -/

/-- 44_channel.md R201: PUSH with room. Its operand is the Sample in flight, the model's own field
(log 11). -/
def Obligations.PushAppendsWhenThereIsRoom : Prop :=
  ∀ (s : State) (m : Sample), s.inflight = some m → s.q.length < s.cfgCap →
    exec .push s = .next { s with q := s.q ++ [m], inflight := none } ∧
    ({ s with q := s.q ++ [m], inflight := none } : State).status.getLsbD 5 = false ∧
    (s.q.length + 1 = s.cfgCap →
      ({ s with q := s.q ++ [m], inflight := none } : State).status.getLsbD 6 = true)

/-- 44_channel.md R202: PUSH onto a full queue under DROP_OLDEST. Its operand is the Sample in flight,
the model's own field (log 11). -/
def Obligations.PushReplacesTheOldestWhenFull : Prop :=
  ∀ (s : State) (m d : Sample) (rest : List Sample),
    s.inflight = some m → s.q = d :: rest → s.q.length = s.cfgCap → s.cfgPolicy = .dropOldest →
    exec .push s = .next { s with
      q := rest ++ [m], evlog := s.evlog ++ [.chDropOldest d.seq], inflight := none } ∧
    (rest ++ [m]).length = s.cfgCap

/-- 44_channel.md R203: PUSH onto a full queue under DROP_NEWEST. Its operand is the Sample in flight,
the model's own field (log 11). -/
def Obligations.PushLosesTheNewestWhenFull : Prop :=
  ∀ (s : State) (m : Sample),
    s.inflight = some m → 1 ≤ s.cfgCap → s.q.length = s.cfgCap → s.cfgPolicy = .dropNewest →
    exec .push s = .next { s with evlog := s.evlog ++ [.chDropNewest m.seq], inflight := none }

/-- 44_channel.md R205, R206: DRAIN in every state; what it returns stands in `results` (log 13). -/
def Obligations.DrainReturnsAndEmptiesTheBacklog : Prop :=
  ∀ s : State,
    exec .drain s = .next { s with q := [], results := s.results ++ [.samples s.q] } ∧
    (s.q = [] → exec .drain s = .next { s with results := s.results ++ [.samples []] }) ∧
    ({ s with q := [], results := s.results ++ [.samples s.q] } : State).status.getLsbD 5 = true ∧
    (1 ≤ s.cfgCap →
      ({ s with q := [], results := s.results ++ [.samples s.q] } : State).status.getLsbD 6 = false)

/-- 44_channel.md R209: with at most one Sample pushed in a step, what was drained followed by what is
queued keeps the order of pushing; without a loss and without a RESET nothing is left out. -/
def Obligations.SamplesKeepTheirOrder : Prop :=
  ∀ s t : State, s.Inv → step s = .next t →
    ∃ pushed : List Sample, t.accepts = s.accepts + pushed.length ∧ pushed.length ≤ 1 ∧
      (t.drainedSamples ++ t.q).Sublist (s.drainedSamples ++ s.q ++ pushed) ∧
      (t.drops = s.drops → (∀ s', fetch s ≠ .run .reset s') →
        t.drainedSamples ++ t.q = s.drainedSamples ++ s.q ++ pushed)

/-- 44_channel.md R208: every step but a RESET accounts for each ACCEPT by one Sample drained, lost at
a full queue or queued; a RESET discards what is queued and nothing else. -/
def Obligations.EverySampleIsAccountedFor : Prop :=
  ∀ s t : State, s.Inv → step s = .next t →
    t.accepts + s.accounted = s.accepts + t.accounted ∨
    ((∃ s', fetch s = .run .reset s') ∧ t.accepts = s.accepts ∧ t.q = [] ∧
      t.accounted + s.q.length = s.accounted)

/-- 20_memory.md R63, 60_exceptions.md R255: a step that takes the CONSUMER's command from the port
leaves everything of the CORE but `q` and the returned values as it was, and it is a DRAIN; on the
port's turn, and under the eager schedule when the PRODUCER has no autonomous step (log 4, 5). -/
def Obligations.TheConsumerOnlyDrains : Prop :=
  ∀ (s t : State) (bytes : List Byte) (more : List Transaction),
    s.inflight = none →
    (s.sched.head? = some .port ∨ (s.sched = [] ∧ s.autonomous = none)) →
    s.port = ⟨.consumer, bytes⟩ :: more → bytes ≠ [] → step s = .next t →
    byteAt bytes 0 = 0x06#8 ∧ t.q = [] ∧ t.results = s.results ++ [.samples s.q] ∧
    t.pstate = s.pstate ∧ t.stop = s.stop ∧ t.err = s.err ∧ t.buf = s.buf ∧
    t.cfgCap = s.cfgCap ∧ t.cfgPolicy = s.cfgPolicy ∧ t.evlog = s.evlog ∧ t.draws = s.draws

/-! ### CKS -/

/-- 41_checksum.md R130: the CRC command in every state; the value stands in `results` (log 13). -/
def Obligations.CrcCommandReturnsTheChecksum : Prop :=
  ∀ (s : State) (d : List Byte),
    exec (.crc d) s = .next { s with results := s.results ++ [.crc (crc32 d)] }

/-- 41_checksum.md R123: bytes that complete no word are not read. -/
def Obligations.TrailingBytesAreNotRead : Prop :=
  (∀ s t : List Byte, s.length % 4 = 0 → t.length ≤ 3 → crc32 (s ++ t) = crc32 s) ∧
  (∀ t : List Byte, t.length ≤ 3 → crc32 t = 0xFFFFFFFF#32)

/-- 41_checksum.md R127, its affine law: the linear part is the same computation from a zero
accumulator. -/
def Obligations.ChecksumIsAffine : Prop :=
  ∀ s e : List Byte, s.length = e.length →
    crc32 (xorBytes s e) = crc32 s ^^^ (cksWords e).foldl cksWord 0#32

/-- 41_checksum.md R128: a change confined to one word changes the checksum, and a change of one byte
among bytes 0 to 19 of a valid frame is always detected. -/
def Obligations.AOneWordChangeIsDetected : Prop :=
  (∀ before w w' after : List Byte,
    before.length % 4 = 0 → w.length = 4 → w'.length = 4 → w ≠ w' →
    crc32 (before ++ w ++ after) ≠ crc32 (before ++ w' ++ after)) ∧
  (∀ (f : List Byte) (k : Nat) (b : Byte),
    f.length = 24 → crcOk f = true → k < 20 → b ≠ byteAt f k → crcOk (f.set k b) = false)

/-- 41_checksum.md R121, R129, 10_state.md R33: the bit-serial registers reach the checksum after 33
ticks a word, and stay there (the model's bit-serial realization, log 15). -/
def Obligations.WorkRegistersReachTheChecksum : Prop :=
  ∀ (s : List Byte) (n : Nat), 33 * (s.length / 4) ≤ n →
    cksTicks s n cksStart = { acc := crc32 s, word := s.length / 4, bit := 0 }

/-! ### CNV -/

/-- 42_converter.md R156, R140: CONV of 14 bytes, with the free value of the draw (log 1), and the
refusal of another length; the Sample stands in `results` (log 13). -/
def Obligations.ConvReturnsTheSample : Prop :=
  ∀ (s : State) (p : List Byte),
    (p.length = 14 → exec (.conv p) s = .next { s with
      draws := s.draws + 1,
      results := s.results ++ [.sample (convert p (Config.timeSource s.draws))] }) ∧
    (p.length ≠ 14 → exec (.conv p) s = .refused .precondition)

/-- 42_converter.md R159: the whole conversion. -/
def Obligations.ConversionIsTheReferenceFunction : Prop :=
  ∀ (p : List Byte) (ts : Time),
    (p.length = 14 → ∃ s : Sample, cnv p ts = some s ∧ s.ts = ts ∧ s.seq = byteAt p 0 ∧
      s.vmask = (byteAt p 11).extractLsb' 0 5 ∧
      s.height = (if (byteAt p 11).getLsbD 0 then
        some (f64Sub (f64Mul Config.kh64 (f64OfInt (int16 (le16 (byteAt p 1) (byteAt p 2)))))
          Config.off64) else none) ∧
      s.vv = (if (byteAt p 11).getLsbD 1 then
        some (f64Mul Config.kvv64 (f64OfInt (int16 (le16 (byteAt p 3) (byteAt p 4))))) else none) ∧
      s.roll = (if (byteAt p 11).getLsbD 2 then
        some (f64Mul Config.kang64 (f64OfInt (int16 (le16 (byteAt p 5) (byteAt p 6))))) else none) ∧
      s.pitch = (if (byteAt p 11).getLsbD 3 then
        some (f64Mul Config.kang64 (f64OfInt (int16 (le16 (byteAt p 7) (byteAt p 8))))) else none) ∧
      s.yaw = (if (byteAt p 11).getLsbD 4 then
        some (f64Mul Config.kang64 (f64OfInt (int16 (le16 (byteAt p 9) (byteAt p 10))))) else none)) ∧
    (p.length ≠ 14 → cnv p ts = none)

/-- 42_converter.md R157, 30_encoding.md R95: the frame made of any field values is accepted, and its
payload converts to the reference scaling of those values; other bytes do not reach the Sample. -/
def Obligations.AConstructedFrameDecodesToItsFields : Prop :=
  ∀ (ver : Half) (seq : Byte) (h vv roll pitch yaw : Half) (valid p12 p13 pad : Byte) (ts : Time),
    let f := frameBytes ver seq h vv roll pitch yaw valid p12 p13 pad
    f.length = 24 ∧ classify f = .accept ∧
    cnv ((f.drop 5).take 14) ts = some
      { ts := ts, seq := seq, vmask := valid.extractLsb' 0 5,
        height := if valid.getLsbD 0 then some (scaleHeight h.toInt) else none,
        vv := if valid.getLsbD 1 then some (scaleVv vv.toInt) else none,
        roll := if valid.getLsbD 2 then some (scaleAngle roll.toInt) else none,
        pitch := if valid.getLsbD 3 then some (scaleAngle pitch.toInt) else none,
        yaw := if valid.getLsbD 4 then some (scaleAngle yaw.toInt) else none }

/-- 00_scope.md R11: rounding gives a finite value for a number no larger than the largest one, and
a finite value is the binary64 value nearest to the number, on a tie one
whose fraction is even (binary64 is taken from IEEE 754: log 16). -/
def Obligations.RoundingIsToNearestEven : Prop :=
  ∀ (neg : Bool) (n d : Nat), 0 < d →
    (n ≤ d * f64MaxMag → f64Finite (f64Round neg n d) = true) ∧
    (f64Finite (f64Round neg n d) = true →
      (f64Round neg n d).msb = neg ∧
      ∀ y : Binary64, f64Finite y = true →
        |(f64Mag (f64Round neg n d) * d : Int) - n| ≤ |(f64Mag y * d : Int) - n| ∧
        (|(f64Mag (f64Round neg n d) * d : Int) - n| = |(f64Mag y * d : Int) - n| →
          f64Mag y ≠ f64Mag (f64Round neg n d) → f64Frac (f64Round neg n d) % 2 = 0))

/-- 42_converter.md R155: every scaled value is finite, and none is larger than the height of the raw
value -32768. -/
def Obligations.ScaledValuesAreFinite : Prop :=
  ∀ u : Half,
    f64Finite (scaleHeight (int16 u)) = true ∧ f64Finite (scaleVv (int16 u)) = true ∧
    f64Finite (scaleAngle (int16 u)) = true ∧
    f64Mag (scaleHeight (int16 u)) ≤ f64Mag 0xC0B964157A3AAEA8#64 ∧
    f64Mag (scaleVv (int16 u)) ≤ f64Mag 0xC0B964157A3AAEA8#64 ∧
    f64Mag (scaleAngle (int16 u)) ≤ f64Mag 0xC0B964157A3AAEA8#64

/-! ### Encoding and fetch -/

/-- 30_encoding.md R88, R90 to R93: decoding the encoding of a well-formed instruction gives it back,
whatever bytes follow, and a command leaves exactly those bytes. -/
def Obligations.DecodeOfEncodeIsTheInstruction : Prop :=
  ∀ (i : Instr) (rest : List Byte), i.wellFormed = true →
    decode i.space (encode i ++ rest) = .ok i ∧
    (i.space = .port → decodeCommand (encode i ++ rest) = .ok (i, rest))

/-- 30_encoding.md R93: what the decoder takes off the port is the encoding of a well-formed command,
of the length the first three bytes give. -/
def Obligations.DecodedBytesAreTheEncoding : Prop :=
  ∀ (bs : List Byte) (i : Instr) (rest : List Byte), decodeCommand bs = .ok (i, rest) →
    bs = encode i ++ rest ∧ i.wellFormed = true ∧ i.space = .port ∧
    commandLength bs = some (encode i).length

/-- 30_encoding.md R92: reserved codes, commands cut short and commands of another agent are refused
by name, on the port's turn and under the eager schedule when the PRODUCER has no autonomous step.
Transactions and turns are the model's (log 4, 5), and so is that bytes are decoded before their agent
is looked at (log 7). -/
def Obligations.ThePortRefusesByName : Prop :=
  ∀ (s : State) (agent : Agent) (op : Byte) (bs : List Byte) (more : List Transaction),
    s.inflight = none →
    (s.sched.head? = some .port ∨ (s.sched = [] ∧ s.autonomous = none)) →
    s.port = ⟨agent, op :: bs⟩ :: more →
    (op = 0x00#8 ∨ 0x0A ≤ op.toNat → step s = .refused .illegalCommand) ∧
    ((op = 0x04#8 ∨ op = 0x08#8) ∧ bs.length < 2 → step s = .refused .truncatedCommand) ∧
    (∀ lo hi data, (op = 0x04#8 ∨ op = 0x08#8) → bs = lo :: hi :: data →
      data.length < lo.toNat + 256 * hi.toNat → step s = .refused .truncatedCommand) ∧
    (op = 0x09#8 ∧ bs.length < 14 → step s = .refused .truncatedCommand) ∧
    (∀ i rest, decodeCommand (op :: bs) = .ok (i, rest) → i.issuer ≠ agent →
      step s = .refused .wrongAgent)

/-- The model's fetch (log 4, 5) over 20_memory.md R61 and 30_encoding.md R90: on the port's turn, and
under the eager schedule when the PRODUCER has no autonomous step, the machine runs the command its
issuing agent presents, in the state with those bytes and that turn taken. -/
def Obligations.StepRunsTheDecodedCommand : Prop :=
  ∀ (s : State) (agent : Agent) (bytes : List Byte) (more : List Transaction) (i : Instr)
    (rest : List Byte),
    s.inflight = none → s.port = ⟨agent, bytes⟩ :: more → decodeCommand bytes = .ok (i, rest) →
    i.issuer = agent → isHeld i s = false →
    (∀ turns, s.sched = .port :: turns →
      step s = exec i { s with port := portAfter agent rest more, sched := turns }) ∧
    (s.sched = [] → s.autonomous = none →
      step s = exec i { s with port := portAfter agent rest more })

/-- The model's fetch (log 5) over 43_synchronizer.md R187: on the PRODUCER's turn, and under the eager
schedule, the machine runs the PRODUCER's enabled autonomous step; where no agent has a step it
waits. -/
def Obligations.StepRunsTheAutonomousStep : Prop :=
  ∀ s : State, s.inflight = none →
    (∀ i turns, s.sched = .producer :: turns → s.autonomous = some i →
      step s = exec i { s with sched := turns }) ∧
    (∀ i, s.sched = [] → s.autonomous = some i → step s = exec i s) ∧
    (s.sched = [] → s.autonomous = none → s.port = [] → step s = .next s)

/-- 30_encoding.md R94, R88, R91: a few encodings written out in the spec decode to what they stand
for. -/
def Obligations.SpecExamplesDecode : Prop :=
  decode .port [0x04#8, 0x02#8, 0x00#8, 0x4E#8, 0x45#8] = .ok (.feed [0x4E#8, 0x45#8]) ∧
  decode .port [0x08#8, 0x04#8, 0x00#8, 0x00#8, 0x00#8, 0x00#8, 0x00#8]
    = .ok (.crc [0x00#8, 0x00#8, 0x00#8, 0x00#8]) ∧
  decode .port [0x06#8] = .ok .drain ∧ decode .port [0x0A#8] = .error .illegalCommand ∧
  decode .port [0x80#8] = .error .illegalCommand ∧ decode .trace [0x80#8] = .ok .syncStep ∧
  decode .port [0x08#8, 0x05#8, 0x00#8, 0x78#8, 0x56#8] = .error .truncatedCommand

/-- 00_scope.md R10: MemRead is little-endian and defined only inside the buffer. -/
def Obligations.MemReadIsLittleEndianInsideTheBuffer : Prop :=
  ∀ (s : State) (i n : Nat),
    ((∃ v, s.memRead i n = some v) ↔ i + n ≤ s.buf.length) ∧
    (i + 1 ≤ s.buf.length → s.memRead i 1 = some (byteAt s.buf i).toNat) ∧
    (i + 2 ≤ s.buf.length →
      s.memRead i 2 = some (le16 (byteAt s.buf i) (byteAt s.buf (i + 1))).toNat) ∧
    (i + 4 ≤ s.buf.length →
      s.memRead i 4 = some (le32 (byteAt s.buf i) (byteAt s.buf (i + 1)) (byteAt s.buf (i + 2))
        (byteAt s.buf (i + 3))).toNat)

/-! ### The whole machine -/

/-- The invariant of Safety.lean is kept by every step from every state that has it. -/
def Obligations.EveryStepKeepsTheInvariant : Prop :=
  ∀ s t : State, s.Inv → step s = .next t → t.Inv

/-- The machine right after reset has the invariant, whatever capacity of at least 1 the opaque
`Config.cap` is (log 3). -/
def Obligations.ResetHasTheInvariant : Prop := State.reset.Inv

/-- 70_reset_and_hazards.md R271: construction fixes the configuration and no step changes it. -/
def Obligations.ConfigurationIsNeverWritten : Prop :=
  (∀ cap policy t, construct cap policy = .next t → t.cfgCap = cap ∧ t.cfgPolicy = policy) ∧
  (∀ s t : State, step s = .next t → t.cfgCap = s.cfgCap ∧ t.cfgPolicy = s.cfgPolicy) ∧
  (∀ s t : State, exec .reset s = .next t → t.cfgCap = s.cfgCap ∧ t.cfgPolicy = s.cfgPolicy)

/-- 10_state.md R32: the event log is empty at power-on, only appended to, kept by RESET, and read by
no step: from any other log the same step is taken and appends the same events. -/
def Obligations.TheEventLogOnlyGrowsAndIsNeverRead : Prop :=
  (∀ cap policy, (State.powerOn cap policy).evlog = []) ∧
  (∀ s t : State, exec .reset s = .next t → t.evlog = s.evlog) ∧
  (∀ s t : State, step s = .next t → ∃ new : List Event, t.evlog = s.evlog ++ new ∧
    ∀ log, step { s with evlog := log } = .next { t with evlog := log ++ new })

/-- 10_state.md R23: STOP sets the stop flag, START and RESET clear it, no other instruction writes
it. -/
def Obligations.OnlyTheHostWritesTheStopFlag : Prop :=
  ∀ (i : Instr) (s t : State), exec i s = .next t →
    (i = .stop → t.stop = true) ∧ (i = .start ∨ i = .reset → t.stop = false) ∧
    (i ≠ .stop → i ≠ .start → i ≠ .reset → t.stop = s.stop)

/-- 10_state.md R27: the only ways in which `buf` changes. -/
def Obligations.TheBufferChangesOnlyAsItsRulesSay : Prop :=
  ∀ (i : Instr) (s t : State), exec i s = .next t →
    t.buf = s.buf ∨ (∃ c, i = .feed c ∧ t.buf = s.buf ++ c) ∨
    (i.issuer = .producer ∧ 24 ≤ s.buf.length ∧ (t.buf = s.buf.drop 1 ∨ t.buf = s.buf.drop 24)) ∨
    ((i = .start ∨ i = .reset) ∧ t.buf = [])

/-- 60_exceptions.md R246: TERR is the only instruction that records or raises a transport error, and
it leaves `q` as it was. -/
def Obligations.OnlyTerrRaisesTheTransportError : Prop :=
  ∀ (i : Instr) (s t : State), exec i s = .next t →
    (t.err = .transport → s.err ≠ .transport → i = .terr) ∧
    (t.evlog.count .transportError ≠ s.evlog.count .transportError → i = .terr) ∧
    (i = .terr → t.pstate = .halted ∧ t.err = .transport ∧ t.q = s.q ∧
      t.evlog = s.evlog ++ [.transportError])

/-- 60_exceptions.md R252: START is the only way out of HALTED into RUN; the only other way out is
RESET, into IDLE. -/
def Obligations.HaltedIsLeftOnlyByStartOrReset : Prop :=
  ∀ (i : Instr) (s t : State), s.pstate = .halted → exec i s = .next t → t.pstate ≠ .halted →
    (i = .start ∧ t.pstate = .run ∧ t.err = .none ∧ t.stop = false ∧ t.buf = []) ∨
    (i = .reset ∧ t.pstate = .idle)

/-! ### Fair runs -/

/-- 92_eei_decisions.md D22 and 43_synchronizer.md R178: in a fair run (the model's form of it: log 21)
a session's buffer becomes quiescent again, whatever the other agents do. -/
def Obligations.FairRunsBecomeQuiescentAgain : Prop :=
  ∀ r, FairRun r → ∀ n, (r n).pstate = .run → ∃ m, n ≤ m ∧ (r m).buf.length < 24

/-- 92_eei_decisions.md D22 and 45_session.md R223: in a fair run (log 21) the PRODUCER observes a stop,
unless a RESET is taken before. -/
def Obligations.FairRunsObserveTheStop : Prop :=
  ∀ r, FairRun r → ∀ n, (r n).pstate = .run → (r n).stop = true → ∃ k, n ≤ k ∧
    (∀ j, n ≤ j → j ≤ k → (r j).pstate = .run ∧ (r j).stop = true) ∧
    ((Takes .observeStop (r k) ∧ (r (k + 1)).pstate = .halted ∧
        (r (k + 1)).evlog = (r k).evlog ++ [.stopped]) ∨
      Takes .reset (r k))

/-- 92_eei_decisions.md D22 and 44_channel.md R202, R205: in a fair run (log 21) a queued Sample stays
queued, through no DRAIN and no RESET, up to a step that is a DRAIN returning it with the whole queue,
or a PUSH under DROP_OLDEST onto a full queue at whose head it stands, or a RESET. -/
def Obligations.FairRunsDrainWhatIsQueued : Prop :=
  ∀ r, FairRun r → ∀ n, ∀ m ∈ (r n).q, ∃ k, n ≤ k ∧
    (∀ j, n ≤ j → j < k → m ∈ (r j).q ∧ ¬ Takes .drain (r j) ∧ ¬ Takes .reset (r j)) ∧
    m ∈ (r k).q ∧
    ((Takes .drain (r k) ∧ (r (k + 1)).q = [] ∧
        (r (k + 1)).drainedSamples = (r k).drainedSamples ++ (r k).q) ∨
      ((r k).cfgPolicy = .dropOldest ∧ (r k).cfgCap ≤ (r k).q.length ∧
        ∃ rest new events, (r k).q = m :: rest ∧ (r (k + 1)).q = rest ++ [new] ∧
          (r (k + 1)).evlog = (r k).evlog ++ events ++ [.chDropOldest m.seq]) ∨
      Takes .reset (r k))

/-! ### Binary64 products and differences -/

/-- 00_scope.md R11, 42_converter.md R148, R149: the product and the difference of finite values are the
rounded exact ones, a raw value is converted exactly, and the four constants are nearest to their
literals (binary64 and the signs of zeros are taken from IEEE 754: log 16). Magnitudes are counted in
units of 2^-1074, so that a product of two of them is divided by `f64Units`. -/
def Obligations.ProductsAndDifferencesAreRoundedExactly : Prop :=
  (∀ a b : Binary64, f64Finite a = true → f64Finite b = true →
    f64Mag a * f64Mag b ≤ f64Units * f64MaxMag →
    NearestEven (f64Mul a b) (f64Val a * f64Val b) f64Units ∧
    (f64Mul a b).msb = (a.msb != b.msb)) ∧
  (∀ a b : Binary64, f64Finite a = true → f64Finite b = true →
    |f64Val a - f64Val b| ≤ f64MaxMag →
    NearestEven (f64Sub a b) (f64Val a - f64Val b) 1 ∧
    (f64Val a ≠ f64Val b → (f64Sub a b).msb = decide (f64Val a < f64Val b)) ∧
    (f64Val a = f64Val b →
      f64Sub a b = if a.msb && !b.msb then 0x8000000000000000#64 else 0x0000000000000000#64)) ∧
  (∀ u : Half,
    f64Finite (f64OfInt (int16 u)) = true ∧ f64Val (f64OfInt (int16 u)) = int16 u * f64Units ∧
    (f64OfInt (int16 u)).msb = decide (int16 u < 0)) ∧
  NearestEven Config.kh64 (16784924 * f64Units) (10 ^ 8) ∧
  NearestEven Config.off64 (1000 * f64Units) 1 ∧
  NearestEven Config.kvv64 (9155413 * f64Units) (10 ^ 9) ∧
  NearestEven Config.kang64 (9587526 * f64Units) (10 ^ 11)
end

