-- ==== Sys2Proof/Laws/Cks.lean ====
section
/-! SUPPORT. The small facts of the checksum's words and iterations. -/

namespace Sys2Proof.Machine

@[simp] theorem cksWords_cons (a b c d : Byte) (rest : List Byte) :
    cksWords (a :: b :: c :: d :: rest) = le32 a b c d :: cksWords rest := by
  rw [cksWords]

theorem cksWords_of_short {s : List Byte} (h : s.length ≤ 3) : cksWords s = [] := by
  match s, h with
  | [], _ => rfl
  | [_], _ => rfl
  | [_, _], _ => rfl
  | [_, _, _], _ => rfl

/-- There are as many words as whole groups of four bytes (41_checksum.md R121). -/
theorem cksWords_length : (s : List Byte) → (cksWords s).length = s.length / 4
  | [] => rfl
  | [_] => by simp [cksWords]
  | [_, _] => by simp [cksWords]
  | [_, _, _] => by simp [cksWords]
  | a :: b :: c :: d :: rest => by
    rw [cksWords_cons, List.length_cons, cksWords_length rest]
    simp only [List.length_cons]
    omega

theorem cksBits_succ (n : Nat) (acc : Word32) : cksBits (n + 1) acc = cksBits n (cksBit acc) := rfl

end Sys2Proof.Machine
end

