-- ==== Sys2Proof/Laws/Decode.lean ====
section
/-! SUPPORT. The small facts of operand assembly and of the opcode table. -/

namespace Sys2Proof

open Sys2Proof.Machine

theorem Opcode.opcodeOf_code (o : Opcode) : opcodeOf o.code = some o := by cases o <;> rfl

/-- The opcode table is read one way: a byte names an opcode only as that opcode's own code. -/
theorem Opcode.code_of_opcodeOf {b : Byte} {o : Opcode} (h : opcodeOf b = some o) : b = o.code := by
  unfold opcodeOf at h
  split at h <;> cases h <;> (apply BitVec.eq_of_toNat_eq; simpa [Opcode.code])

namespace Machine

/-- `le16` as a number: the second byte weighs 256. -/
theorem le16_toNat (a b : Byte) : (le16 a b).toNat = a.toNat + 256 * b.toNat := by
  have ha := a.isLt
  have hb := b.isLt
  have h1 : a.toNat % 2 ^ 16 = a.toNat := Nat.mod_eq_of_lt (by omega)
  have h2 : b.toNat % 2 ^ 16 = b.toNat := Nat.mod_eq_of_lt (by omega)
  have h3 : b.toNat <<< 8 % 2 ^ 16 = b.toNat <<< 8 := by
    rw [Nat.shiftLeft_eq]
    exact Nat.mod_eq_of_lt (by omega)
  simp only [le16, BitVec.toNat_or, BitVec.toNat_shiftLeft, BitVec.zeroExtend, BitVec.toNat_setWidth,
    h1, h2, h3]
  rw [Nat.or_comm, ← Nat.shiftLeft_add_eq_or_of_lt ha, Nat.shiftLeft_eq]
  omega

/-- The bytes of a 16-bit integer assembled again. -/
theorem bytes16_le16 (lo hi : Byte) : bytes16 (le16 lo hi) = [lo, hi] := by
  have hlo := lo.isLt
  have h1 : (le16 lo hi).extractLsb' 0 8 = lo := by
    apply BitVec.eq_of_toNat_eq
    rw [BitVec.extractLsb'_toNat, le16_toNat, Nat.shiftRight_zero]
    omega
  have h2 : (le16 lo hi).extractLsb' 8 8 = hi := by
    apply BitVec.eq_of_toNat_eq
    rw [BitVec.extractLsb'_toNat, le16_toNat]
    simp only [Nat.shiftRight_eq_div_pow]
    have := hi.isLt
    omega
  simp [bytes16, h1, h2]

/-- The number of a 16-bit length field. -/
theorem le16_bytes_toNat {n : Nat} (h : n ≤ 65535) :
    (le16 ((BitVec.ofNat 16 n).extractLsb' 0 8) ((BitVec.ofNat 16 n).extractLsb' 8 8)).toNat = n := by
  rw [le16_toNat]
  simp only [BitVec.extractLsb'_toNat, BitVec.toNat_ofNat, Nat.shiftRight_eq_div_pow]
  omega

/-- A byte of a prefix is a byte of the whole. -/
theorem byteAt_take {s : List Byte} {n i : Nat} (h : i < n) : byteAt (s.take n) i = byteAt s i := by
  simp [byteAt, List.getD, h]

/-- The payload of the first 24 bytes. -/
theorem payload_take (s : List Byte) : payload (s.take 24) = (s.drop 5).take 14 := by
  simp only [payload, List.drop_take, List.take_take]
  congr 1

end Machine

end Sys2Proof
end

