-- ==== Sys2Proof/Laws/State.lean ====
section
/-! SUPPORT. One lemma per field per update of State, each true by rfl. -/

namespace Sys2Proof.Machine

@[simp] theorem State.emit_pstate (e : Event) (s : State) : (s.emit e).pstate = s.pstate := rfl
@[simp] theorem State.emit_stop (e : Event) (s : State) : (s.emit e).stop = s.stop := rfl
@[simp] theorem State.emit_err (e : Event) (s : State) : (s.emit e).err = s.err := rfl
@[simp] theorem State.emit_buf (e : Event) (s : State) : (s.emit e).buf = s.buf := rfl
@[simp] theorem State.emit_q (e : Event) (s : State) : (s.emit e).q = s.q := rfl
@[simp] theorem State.emit_cfgCap (e : Event) (s : State) : (s.emit e).cfgCap = s.cfgCap := rfl
@[simp] theorem State.emit_cfgPolicy (e : Event) (s : State) : (s.emit e).cfgPolicy = s.cfgPolicy := rfl
@[simp] theorem State.emit_evlog (e : Event) (s : State) : (s.emit e).evlog = s.evlog ++ [e] := rfl
@[simp] theorem State.emit_inflight (e : Event) (s : State) : (s.emit e).inflight = s.inflight := rfl
@[simp] theorem State.emit_draws (e : Event) (s : State) : (s.emit e).draws = s.draws := rfl
@[simp] theorem State.emit_results (e : Event) (s : State) : (s.emit e).results = s.results := rfl
@[simp] theorem State.emit_port (e : Event) (s : State) : (s.emit e).port = s.port := rfl
@[simp] theorem State.emit_sched (e : Event) (s : State) : (s.emit e).sched = s.sched := rfl

@[simp] theorem State.answer_pstate (r : Result) (s : State) : (s.answer r).pstate = s.pstate := rfl
@[simp] theorem State.answer_stop (r : Result) (s : State) : (s.answer r).stop = s.stop := rfl
@[simp] theorem State.answer_err (r : Result) (s : State) : (s.answer r).err = s.err := rfl
@[simp] theorem State.answer_buf (r : Result) (s : State) : (s.answer r).buf = s.buf := rfl
@[simp] theorem State.answer_q (r : Result) (s : State) : (s.answer r).q = s.q := rfl
@[simp] theorem State.answer_cfgCap (r : Result) (s : State) : (s.answer r).cfgCap = s.cfgCap := rfl
@[simp] theorem State.answer_cfgPolicy (r : Result) (s : State) : (s.answer r).cfgPolicy = s.cfgPolicy := rfl
@[simp] theorem State.answer_evlog (r : Result) (s : State) : (s.answer r).evlog = s.evlog := rfl
@[simp] theorem State.answer_inflight (r : Result) (s : State) : (s.answer r).inflight = s.inflight := rfl
@[simp] theorem State.answer_draws (r : Result) (s : State) : (s.answer r).draws = s.draws := rfl
@[simp] theorem State.answer_results (r : Result) (s : State) : (s.answer r).results = s.results ++ [r] := rfl
@[simp] theorem State.answer_port (r : Result) (s : State) : (s.answer r).port = s.port := rfl
@[simp] theorem State.answer_sched (r : Result) (s : State) : (s.answer r).sched = s.sched := rfl

@[simp] theorem State.append_pstate (c : List Byte) (s : State) : (s.append c).pstate = s.pstate := rfl
@[simp] theorem State.append_stop (c : List Byte) (s : State) : (s.append c).stop = s.stop := rfl
@[simp] theorem State.append_err (c : List Byte) (s : State) : (s.append c).err = s.err := rfl
@[simp] theorem State.append_buf (c : List Byte) (s : State) : (s.append c).buf = s.buf ++ c := rfl
@[simp] theorem State.append_q (c : List Byte) (s : State) : (s.append c).q = s.q := rfl
@[simp] theorem State.append_cfgCap (c : List Byte) (s : State) : (s.append c).cfgCap = s.cfgCap := rfl
@[simp] theorem State.append_cfgPolicy (c : List Byte) (s : State) : (s.append c).cfgPolicy = s.cfgPolicy := rfl
@[simp] theorem State.append_evlog (c : List Byte) (s : State) : (s.append c).evlog = s.evlog := rfl
@[simp] theorem State.append_inflight (c : List Byte) (s : State) : (s.append c).inflight = s.inflight := rfl
@[simp] theorem State.append_draws (c : List Byte) (s : State) : (s.append c).draws = s.draws := rfl
@[simp] theorem State.append_results (c : List Byte) (s : State) : (s.append c).results = s.results := rfl
@[simp] theorem State.append_port (c : List Byte) (s : State) : (s.append c).port = s.port := rfl
@[simp] theorem State.append_sched (c : List Byte) (s : State) : (s.append c).sched = s.sched := rfl

@[simp] theorem State.consume_pstate (n : Nat) (s : State) : (s.consume n).pstate = s.pstate := rfl
@[simp] theorem State.consume_stop (n : Nat) (s : State) : (s.consume n).stop = s.stop := rfl
@[simp] theorem State.consume_err (n : Nat) (s : State) : (s.consume n).err = s.err := rfl
@[simp] theorem State.consume_buf (n : Nat) (s : State) : (s.consume n).buf = s.buf.drop n := rfl
@[simp] theorem State.consume_q (n : Nat) (s : State) : (s.consume n).q = s.q := rfl
@[simp] theorem State.consume_cfgCap (n : Nat) (s : State) : (s.consume n).cfgCap = s.cfgCap := rfl
@[simp] theorem State.consume_cfgPolicy (n : Nat) (s : State) : (s.consume n).cfgPolicy = s.cfgPolicy := rfl
@[simp] theorem State.consume_evlog (n : Nat) (s : State) : (s.consume n).evlog = s.evlog := rfl
@[simp] theorem State.consume_inflight (n : Nat) (s : State) : (s.consume n).inflight = s.inflight := rfl
@[simp] theorem State.consume_draws (n : Nat) (s : State) : (s.consume n).draws = s.draws := rfl
@[simp] theorem State.consume_results (n : Nat) (s : State) : (s.consume n).results = s.results := rfl
@[simp] theorem State.consume_port (n : Nat) (s : State) : (s.consume n).port = s.port := rfl
@[simp] theorem State.consume_sched (n : Nat) (s : State) : (s.consume n).sched = s.sched := rfl

@[simp] theorem State.drawn_pstate (s : State) : s.drawn.pstate = s.pstate := rfl
@[simp] theorem State.drawn_stop (s : State) : s.drawn.stop = s.stop := rfl
@[simp] theorem State.drawn_err (s : State) : s.drawn.err = s.err := rfl
@[simp] theorem State.drawn_buf (s : State) : s.drawn.buf = s.buf := rfl
@[simp] theorem State.drawn_q (s : State) : s.drawn.q = s.q := rfl
@[simp] theorem State.drawn_cfgCap (s : State) : s.drawn.cfgCap = s.cfgCap := rfl
@[simp] theorem State.drawn_cfgPolicy (s : State) : s.drawn.cfgPolicy = s.cfgPolicy := rfl
@[simp] theorem State.drawn_evlog (s : State) : s.drawn.evlog = s.evlog := rfl
@[simp] theorem State.drawn_inflight (s : State) : s.drawn.inflight = s.inflight := rfl
@[simp] theorem State.drawn_draws (s : State) : s.drawn.draws = s.draws + 1 := rfl
@[simp] theorem State.drawn_results (s : State) : s.drawn.results = s.results := rfl
@[simp] theorem State.drawn_port (s : State) : s.drawn.port = s.port := rfl
@[simp] theorem State.drawn_sched (s : State) : s.drawn.sched = s.sched := rfl

@[simp] theorem State.stage_pstate (m : Sample) (s : State) : (s.stage m).pstate = s.pstate := rfl
@[simp] theorem State.stage_stop (m : Sample) (s : State) : (s.stage m).stop = s.stop := rfl
@[simp] theorem State.stage_err (m : Sample) (s : State) : (s.stage m).err = s.err := rfl
@[simp] theorem State.stage_buf (m : Sample) (s : State) : (s.stage m).buf = s.buf := rfl
@[simp] theorem State.stage_q (m : Sample) (s : State) : (s.stage m).q = s.q := rfl
@[simp] theorem State.stage_cfgCap (m : Sample) (s : State) : (s.stage m).cfgCap = s.cfgCap := rfl
@[simp] theorem State.stage_cfgPolicy (m : Sample) (s : State) : (s.stage m).cfgPolicy = s.cfgPolicy := rfl
@[simp] theorem State.stage_evlog (m : Sample) (s : State) : (s.stage m).evlog = s.evlog := rfl
@[simp] theorem State.stage_inflight (m : Sample) (s : State) : (s.stage m).inflight = some m := rfl
@[simp] theorem State.stage_draws (m : Sample) (s : State) : (s.stage m).draws = s.draws := rfl
@[simp] theorem State.stage_results (m : Sample) (s : State) : (s.stage m).results = s.results := rfl
@[simp] theorem State.stage_port (m : Sample) (s : State) : (s.stage m).port = s.port := rfl
@[simp] theorem State.stage_sched (m : Sample) (s : State) : (s.stage m).sched = s.sched := rfl

@[simp] theorem State.unstage_pstate (s : State) : s.unstage.pstate = s.pstate := rfl
@[simp] theorem State.unstage_stop (s : State) : s.unstage.stop = s.stop := rfl
@[simp] theorem State.unstage_err (s : State) : s.unstage.err = s.err := rfl
@[simp] theorem State.unstage_buf (s : State) : s.unstage.buf = s.buf := rfl
@[simp] theorem State.unstage_q (s : State) : s.unstage.q = s.q := rfl
@[simp] theorem State.unstage_cfgCap (s : State) : s.unstage.cfgCap = s.cfgCap := rfl
@[simp] theorem State.unstage_cfgPolicy (s : State) : s.unstage.cfgPolicy = s.cfgPolicy := rfl
@[simp] theorem State.unstage_evlog (s : State) : s.unstage.evlog = s.evlog := rfl
@[simp] theorem State.unstage_inflight (s : State) : s.unstage.inflight = none := rfl
@[simp] theorem State.unstage_draws (s : State) : s.unstage.draws = s.draws := rfl
@[simp] theorem State.unstage_results (s : State) : s.unstage.results = s.results := rfl
@[simp] theorem State.unstage_port (s : State) : s.unstage.port = s.port := rfl
@[simp] theorem State.unstage_sched (s : State) : s.unstage.sched = s.sched := rfl

@[simp] theorem State.enqueue_pstate (m : Sample) (s : State) : (s.enqueue m).pstate = s.pstate := rfl
@[simp] theorem State.enqueue_stop (m : Sample) (s : State) : (s.enqueue m).stop = s.stop := rfl
@[simp] theorem State.enqueue_err (m : Sample) (s : State) : (s.enqueue m).err = s.err := rfl
@[simp] theorem State.enqueue_buf (m : Sample) (s : State) : (s.enqueue m).buf = s.buf := rfl
@[simp] theorem State.enqueue_q (m : Sample) (s : State) : (s.enqueue m).q = s.q ++ [m] := rfl
@[simp] theorem State.enqueue_cfgCap (m : Sample) (s : State) : (s.enqueue m).cfgCap = s.cfgCap := rfl
@[simp] theorem State.enqueue_cfgPolicy (m : Sample) (s : State) : (s.enqueue m).cfgPolicy = s.cfgPolicy := rfl
@[simp] theorem State.enqueue_evlog (m : Sample) (s : State) : (s.enqueue m).evlog = s.evlog := rfl
@[simp] theorem State.enqueue_inflight (m : Sample) (s : State) : (s.enqueue m).inflight = s.inflight := rfl
@[simp] theorem State.enqueue_draws (m : Sample) (s : State) : (s.enqueue m).draws = s.draws := rfl
@[simp] theorem State.enqueue_results (m : Sample) (s : State) : (s.enqueue m).results = s.results := rfl
@[simp] theorem State.enqueue_port (m : Sample) (s : State) : (s.enqueue m).port = s.port := rfl
@[simp] theorem State.enqueue_sched (m : Sample) (s : State) : (s.enqueue m).sched = s.sched := rfl

@[simp] theorem State.drainAll_pstate (s : State) : s.drainAll.pstate = s.pstate := rfl
@[simp] theorem State.drainAll_stop (s : State) : s.drainAll.stop = s.stop := rfl
@[simp] theorem State.drainAll_err (s : State) : s.drainAll.err = s.err := rfl
@[simp] theorem State.drainAll_buf (s : State) : s.drainAll.buf = s.buf := rfl
@[simp] theorem State.drainAll_q (s : State) : s.drainAll.q = [] := rfl
@[simp] theorem State.drainAll_cfgCap (s : State) : s.drainAll.cfgCap = s.cfgCap := rfl
@[simp] theorem State.drainAll_cfgPolicy (s : State) : s.drainAll.cfgPolicy = s.cfgPolicy := rfl
@[simp] theorem State.drainAll_evlog (s : State) : s.drainAll.evlog = s.evlog := rfl
@[simp] theorem State.drainAll_inflight (s : State) : s.drainAll.inflight = s.inflight := rfl
@[simp] theorem State.drainAll_draws (s : State) : s.drainAll.draws = s.draws := rfl
@[simp] theorem State.drainAll_results (s : State) : s.drainAll.results = s.results ++ [.samples s.q] := rfl
@[simp] theorem State.drainAll_port (s : State) : s.drainAll.port = s.port := rfl
@[simp] theorem State.drainAll_sched (s : State) : s.drainAll.sched = s.sched := rfl

@[simp] theorem State.resetRegisters_pstate (s : State) : s.resetRegisters.pstate = .idle := rfl
@[simp] theorem State.resetRegisters_stop (s : State) : s.resetRegisters.stop = false := rfl
@[simp] theorem State.resetRegisters_err (s : State) : s.resetRegisters.err = .none := rfl
@[simp] theorem State.resetRegisters_buf (s : State) : s.resetRegisters.buf = [] := rfl
@[simp] theorem State.resetRegisters_q (s : State) : s.resetRegisters.q = [] := rfl
@[simp] theorem State.resetRegisters_cfgCap (s : State) : s.resetRegisters.cfgCap = s.cfgCap := rfl
@[simp] theorem State.resetRegisters_cfgPolicy (s : State) : s.resetRegisters.cfgPolicy = s.cfgPolicy := rfl
@[simp] theorem State.resetRegisters_evlog (s : State) : s.resetRegisters.evlog = s.evlog := rfl
@[simp] theorem State.resetRegisters_inflight (s : State) : s.resetRegisters.inflight = s.inflight := rfl
@[simp] theorem State.resetRegisters_draws (s : State) : s.resetRegisters.draws = s.draws := rfl
@[simp] theorem State.resetRegisters_results (s : State) : s.resetRegisters.results = s.results := rfl
@[simp] theorem State.resetRegisters_port (s : State) : s.resetRegisters.port = s.port := rfl
@[simp] theorem State.resetRegisters_sched (s : State) : s.resetRegisters.sched = s.sched := rfl

@[simp] theorem State.openSession_pstate (s : State) : s.openSession.pstate = .run := rfl
@[simp] theorem State.openSession_stop (s : State) : s.openSession.stop = false := rfl
@[simp] theorem State.openSession_err (s : State) : s.openSession.err = .none := rfl
@[simp] theorem State.openSession_buf (s : State) : s.openSession.buf = [] := rfl
@[simp] theorem State.openSession_q (s : State) : s.openSession.q = s.q := rfl
@[simp] theorem State.openSession_cfgCap (s : State) : s.openSession.cfgCap = s.cfgCap := rfl
@[simp] theorem State.openSession_cfgPolicy (s : State) : s.openSession.cfgPolicy = s.cfgPolicy := rfl
@[simp] theorem State.openSession_evlog (s : State) : s.openSession.evlog = s.evlog := rfl
@[simp] theorem State.openSession_inflight (s : State) : s.openSession.inflight = s.inflight := rfl
@[simp] theorem State.openSession_draws (s : State) : s.openSession.draws = s.draws := rfl
@[simp] theorem State.openSession_results (s : State) : s.openSession.results = s.results := rfl
@[simp] theorem State.openSession_port (s : State) : s.openSession.port = s.port := rfl
@[simp] theorem State.openSession_sched (s : State) : s.openSession.sched = s.sched := rfl

@[simp] theorem State.halt_pstate (s : State) : s.halt.pstate = .halted := rfl
@[simp] theorem State.halt_stop (s : State) : s.halt.stop = s.stop := rfl
@[simp] theorem State.halt_err (s : State) : s.halt.err = s.err := rfl
@[simp] theorem State.halt_buf (s : State) : s.halt.buf = s.buf := rfl
@[simp] theorem State.halt_q (s : State) : s.halt.q = s.q := rfl
@[simp] theorem State.halt_cfgCap (s : State) : s.halt.cfgCap = s.cfgCap := rfl
@[simp] theorem State.halt_cfgPolicy (s : State) : s.halt.cfgPolicy = s.cfgPolicy := rfl
@[simp] theorem State.halt_evlog (s : State) : s.halt.evlog = s.evlog := rfl
@[simp] theorem State.halt_inflight (s : State) : s.halt.inflight = s.inflight := rfl
@[simp] theorem State.halt_draws (s : State) : s.halt.draws = s.draws := rfl
@[simp] theorem State.halt_results (s : State) : s.halt.results = s.results := rfl
@[simp] theorem State.halt_port (s : State) : s.halt.port = s.port := rfl
@[simp] theorem State.halt_sched (s : State) : s.halt.sched = s.sched := rfl

@[simp] theorem State.raiseTransportError_pstate (s : State) : s.raiseTransportError.pstate = .halted := rfl
@[simp] theorem State.raiseTransportError_stop (s : State) : s.raiseTransportError.stop = s.stop := rfl
@[simp] theorem State.raiseTransportError_err (s : State) : s.raiseTransportError.err = .transport := rfl
@[simp] theorem State.raiseTransportError_buf (s : State) : s.raiseTransportError.buf = s.buf := rfl
@[simp] theorem State.raiseTransportError_q (s : State) : s.raiseTransportError.q = s.q := rfl
@[simp] theorem State.raiseTransportError_cfgCap (s : State) : s.raiseTransportError.cfgCap = s.cfgCap := rfl
@[simp] theorem State.raiseTransportError_cfgPolicy (s : State) : s.raiseTransportError.cfgPolicy = s.cfgPolicy := rfl
@[simp] theorem State.raiseTransportError_evlog (s : State) : s.raiseTransportError.evlog = s.evlog ++ [.transportError] := rfl
@[simp] theorem State.raiseTransportError_inflight (s : State) : s.raiseTransportError.inflight = s.inflight := rfl
@[simp] theorem State.raiseTransportError_draws (s : State) : s.raiseTransportError.draws = s.draws := rfl
@[simp] theorem State.raiseTransportError_results (s : State) : s.raiseTransportError.results = s.results := rfl
@[simp] theorem State.raiseTransportError_port (s : State) : s.raiseTransportError.port = s.port := rfl
@[simp] theorem State.raiseTransportError_sched (s : State) : s.raiseTransportError.sched = s.sched := rfl

end Sys2Proof.Machine
end

