-- ==== Sys2Proof/Laws/Ops.lean ====
section
/-! SUPPORT. What each shared operation of Machine/Ops.lean can do, said once. -/

namespace Sys2Proof.Machine

/-! ### Enabling conditions -/

@[simp] theorem State.syncEnabled_iff (s : State) :
    s.syncEnabled = true ↔ s.pstate = .run ∧ 24 ≤ s.buf.length := by
  simp [State.syncEnabled]

@[simp] theorem State.readEnabled_iff (s : State) :
    s.readEnabled = true ↔ s.pstate = .run ∧ s.stop = false ∧ s.buf.length < 24 := by
  simp [State.readEnabled, and_assoc]

@[simp] theorem State.stopEnabled_iff (s : State) :
    s.stopEnabled = true ↔ s.pstate = .run ∧ s.stop = true ∧ s.buf.length < 24 := by
  simp [State.stopEnabled, and_assoc]

@[simp] theorem State.feedHeld_iff (s : State) :
    s.feedHeld = true ↔ s.pstate = .run ∧ s.stop = false ∧ 24 ≤ s.buf.length := by
  simp [State.feedHeld, and_assoc]

@[simp] theorem State.atWindow_iff (c : WindowClass) (w : List Byte) (s : State) :
    s.atWindow c w = true ↔
      (s.pstate = .run ∧ 24 ≤ s.buf.length) ∧ s.buf.take 24 = w ∧ classify w = c := by
  simp [State.atWindow, and_assoc]

/-- A read and a held FEED exclude each other. -/
theorem State.readEnabled_not_held {s : State} (h : s.readEnabled = true) : s.feedHeld = false := by
  rw [State.readEnabled_iff] at h
  rw [Bool.eq_false_iff, ne_eq, State.feedHeld_iff]
  omega

/-! ### PUSH -/

theorem State.replaceOldest_cons {m d : Sample} {rest : List Sample} {s : State}
    (h : s.q = d :: rest) :
    s.replaceOldest m = { s with q := rest ++ [m], evlog := s.evlog ++ [.chDropOldest d.seq] } := by
  simp [State.replaceOldest, h]

/-- What a PUSH does to the queue and the log: there is room; or the queue is full and the oldest or
the offered Sample is lost. The last case needs a capacity of 0. -/
theorem State.pushSample_cases (m : Sample) (s : State) :
    (s.q.length < s.cfgCap ∧ s.pushSample m = { s with q := s.q ++ [m] }) ∨
    (s.cfgCap ≤ s.q.length ∧ s.cfgPolicy = .dropOldest ∧ ∃ d rest, s.q = d :: rest ∧
      s.pushSample m
        = { s with q := rest ++ [m], evlog := s.evlog ++ [.chDropOldest d.seq] }) ∨
    (s.cfgCap ≤ s.q.length ∧ s.cfgPolicy = .dropNewest ∧
      s.pushSample m = { s with evlog := s.evlog ++ [.chDropNewest m.seq] }) ∨
    (s.cfgCap = 0 ∧ s.q = [] ∧ s.pushSample m = s) := by
  unfold State.pushSample
  split
  case isTrue h => exact .inl ⟨h, rfl⟩
  case isFalse h =>
    split
    case h_1 hp =>
      cases hq : s.q with
      | nil =>
        refine .inr (.inr (.inr ⟨?_, rfl, by simp [State.replaceOldest, hq]⟩))
        simp [hq] at h
        exact h
      | cons d rest =>
        exact .inr (.inl ⟨by rw [← hq]; omega, hp, d, rest, rfl, State.replaceOldest_cons hq⟩)
    case h_2 hp => exact .inr (.inr (.inl ⟨by omega, hp, rfl⟩))

/-- With a capacity of at least 1 the first three cases are all there is. -/
theorem State.pushSample_cases_of_cap {m : Sample} {s : State} (hc : 1 ≤ s.cfgCap) :
    (s.q.length < s.cfgCap ∧ s.pushSample m = { s with q := s.q ++ [m] }) ∨
    (s.cfgCap ≤ s.q.length ∧ s.cfgPolicy = .dropOldest ∧ ∃ d rest, s.q = d :: rest ∧
      s.pushSample m
        = { s with q := rest ++ [m], evlog := s.evlog ++ [.chDropOldest d.seq] }) ∨
    (s.cfgCap ≤ s.q.length ∧ s.cfgPolicy = .dropNewest ∧
      s.pushSample m = { s with evlog := s.evlog ++ [.chDropNewest m.seq] }) := by
  rcases State.pushSample_cases m s with h | h | h | ⟨h, -⟩
  · exact .inl h
  · exact .inr (.inl h)
  · exact .inr (.inr h)
  · omega

/-- PUSH writes `q` and the event log only. -/
theorem State.pushSample_frame (m : Sample) (s : State) :
    s.pushSample m = { s with q := (s.pushSample m).q, evlog := (s.pushSample m).evlog } := by
  rcases State.pushSample_cases m s with ⟨-, h⟩ | ⟨-, -, d, rest, -, h⟩ | ⟨-, -, h⟩ | ⟨-, -, h⟩ <;>
    rw [h]

@[simp] theorem State.pushSample_pstate (m : Sample) (s : State) :
    (s.pushSample m).pstate = s.pstate := by rw [State.pushSample_frame]
@[simp] theorem State.pushSample_stop (m : Sample) (s : State) :
    (s.pushSample m).stop = s.stop := by rw [State.pushSample_frame]
@[simp] theorem State.pushSample_err (m : Sample) (s : State) :
    (s.pushSample m).err = s.err := by rw [State.pushSample_frame]
@[simp] theorem State.pushSample_buf (m : Sample) (s : State) :
    (s.pushSample m).buf = s.buf := by rw [State.pushSample_frame]
@[simp] theorem State.pushSample_cfgCap (m : Sample) (s : State) :
    (s.pushSample m).cfgCap = s.cfgCap := by rw [State.pushSample_frame]
@[simp] theorem State.pushSample_cfgPolicy (m : Sample) (s : State) :
    (s.pushSample m).cfgPolicy = s.cfgPolicy := by rw [State.pushSample_frame]
@[simp] theorem State.pushSample_inflight (m : Sample) (s : State) :
    (s.pushSample m).inflight = s.inflight := by rw [State.pushSample_frame]
@[simp] theorem State.pushSample_draws (m : Sample) (s : State) :
    (s.pushSample m).draws = s.draws := by rw [State.pushSample_frame]
@[simp] theorem State.pushSample_results (m : Sample) (s : State) :
    (s.pushSample m).results = s.results := by rw [State.pushSample_frame]
@[simp] theorem State.pushSample_port (m : Sample) (s : State) :
    (s.pushSample m).port = s.port := by rw [State.pushSample_frame]
@[simp] theorem State.pushSample_sched (m : Sample) (s : State) :
    (s.pushSample m).sched = s.sched := by rw [State.pushSample_frame]

/-- PUSH never makes the queue longer than its capacity (44_channel.md R204). -/
theorem State.pushSample_length_le {m : Sample} {s : State} (hc : 1 ≤ s.cfgCap)
    (h : s.q.length ≤ s.cfgCap) : (s.pushSample m).q.length ≤ s.cfgCap := by
  rcases State.pushSample_cases_of_cap (m := m) hc with
    ⟨hl, e⟩ | ⟨-, -, d, rest, hq, e⟩ | ⟨-, -, e⟩ <;> rw [e]
  · simpa using hl
  · simpa [hq] using h
  · exact h

/-- Every Sample in the queue after a PUSH was there or is the one pushed. -/
theorem State.mem_pushSample {m x : Sample} {s : State} (h : x ∈ (s.pushSample m).q) :
    x ∈ s.q ∨ x = m := by
  rcases State.pushSample_cases m s with
    ⟨-, e⟩ | ⟨-, -, d, rest, hq, e⟩ | ⟨-, -, e⟩ | ⟨-, -, e⟩ <;> rw [e] at h
  · simpa using h
  · rw [hq]
    rcases List.mem_append.mp h with h | h
    · exact .inl (List.mem_cons_of_mem _ h)
    · exact .inr (by simpa using h)
  · exact .inl h
  · exact .inl h

/-- The pushed log extends the log by at most one drop event. -/
theorem State.evlog_prefix_pushSample (m : Sample) (s : State) :
    s.evlog <+: (s.pushSample m).evlog := by
  rcases State.pushSample_cases m s with
    ⟨-, e⟩ | ⟨-, -, d, rest, -, e⟩ | ⟨-, -, e⟩ | ⟨-, -, e⟩ <;> simp [e]

/-- The one thing `pushInto` can do. -/
@[simp] theorem pushInto_next_iff (m : Sample) (s t : State) :
    pushInto m s = .next t ↔ 1 ≤ s.cfgCap ∧ s.pushSample m = t := by
  unfold pushInto
  split <;> simp <;> omega

/-- A PUSH into a queue of capacity at least 1 completes. -/
theorem pushInto_of_cap {m : Sample} {s : State} (h : 1 ≤ s.cfgCap) :
    pushInto m s = .next (s.pushSample m) := by
  rw [pushInto_next_iff]
  exact ⟨h, rfl⟩

end Sys2Proof.Machine
end

