-- ==== Sys2Proof/Laws/Exec.lean ====
section
/-! SUPPORT. What each instruction can do, said once: if it answers a next state, then which. -/

namespace Sys2Proof.Machine

@[simp] theorem exec_reset_next (s t : State) : exec .reset s = .next t ↔ s.resetRegisters = t := by
  simp [exec, execReset]

@[simp] theorem exec_start_next (s t : State) :
    exec .start s = .next t ↔ s.pstate ≠ .run ∧ s.openSession = t := by
  simp only [exec, execStart]
  split <;> simp [*]

@[simp] theorem exec_stop_next (s t : State) :
    exec .stop s = .next t ↔ { s with stop := true } = t := by
  simp [exec, execStop]

@[simp] theorem exec_feed_next (c : List Byte) (s t : State) :
    exec (.feed c) s = .next t ↔
      (s.readEnabled = true ∧ s.append c = t) ∨ (s.feedHeld = true ∧ s = t) := by
  simp only [exec, execFeed]
  split
  case isTrue h => simp [h, State.readEnabled_not_held h]
  case isFalse h => split <;> simp_all

@[simp] theorem exec_terr_next (s t : State) :
    exec .terr s = .next t ↔ s.readEnabled = true ∧ s.raiseTransportError = t := by
  simp only [exec, execTerr]
  split <;> simp_all

@[simp] theorem exec_drain_next (s t : State) : exec .drain s = .next t ↔ s.drainAll = t := by
  simp [exec, execDrain]

@[simp] theorem exec_rdstat_next (s t : State) :
    exec .rdstat s = .next t ↔ s.answer (.status s.status s.q.length s.buf.length) = t := by
  simp [exec, execRdstat]

@[simp] theorem exec_crc_next (d : List Byte) (s t : State) :
    exec (.crc d) s = .next t ↔ s.answer (.crc (crc32 d)) = t := by
  simp [exec, execCrc]

@[simp] theorem cnv_eq_some (p : List Byte) (ts : Time) (m : Sample) :
    cnv p ts = some m ↔ p.length = 14 ∧ convert p ts = m := by
  simp [cnv]

@[simp] theorem exec_conv_next (p : List Byte) (s t : State) :
    exec (.conv p) s = .next t ↔
      p.length = 14 ∧ s.drawn.answer (.sample (convert p s.timeNow)) = t := by
  simp only [exec, execConv, cnv]
  split <;> rename_i h <;> split at h <;> simp_all

@[simp] theorem exec_observeStop_next (s t : State) :
    exec .observeStop s = .next t ↔ s.stopEnabled = true ∧ s.halt.emit .stopped = t := by
  simp only [exec, execObserveStop]
  split <;> simp_all

@[simp] theorem exec_push_next (s t : State) :
    exec .push s = .next t ↔
      ∃ m, s.inflight = some m ∧ 1 ≤ s.cfgCap ∧ s.unstage.pushSample m = t := by
  simp only [exec, execPush]
  split <;> simp_all

/-- The payload of a window is 14 bytes. -/
theorem payload_length {w : List Byte} (h : w.length = 24) : (payload w).length = 14 := by
  simp [payload, h]

/-- The state an ACCEPT pushes into. -/
def State.accepting (w : List Byte) (s : State) : State :=
  { s with buf := s.buf.drop 24, evlog := s.evlog ++ [.accept (seqField (payload w))],
           draws := s.draws + 1, inflight := none }

/-- ACCEPT of a 24-byte window into a queue of capacity at least 1. -/
theorem acceptWindow_eq {w : List Byte} {s : State} (hw : w.length = 24) (hc : 1 ≤ s.cfgCap) :
    acceptWindow w s
      = .next ((s.accepting w).pushSample (convert (payload w) s.timeNow)) := by
  have hp : cnv (payload w) s.timeNow = some (convert (payload w) s.timeNow) := by
    simp [payload_length hw]
  simp only [acceptWindow, hp, execPush, State.stage_inflight]
  rw [pushInto_of_cap (by simpa using hc)]
  rfl

/-- What ACCEPT of a 24-byte window can do. -/
theorem acceptWindow_next {w : List Byte} {s t : State} (hw : w.length = 24) :
    acceptWindow w s = .next t ↔
      1 ≤ s.cfgCap ∧ (s.accepting w).pushSample (convert (payload w) s.timeNow) = t := by
  by_cases hc : 1 ≤ s.cfgCap
  · rw [acceptWindow_eq hw hc]
    simp [hc]
  · have hp : cnv (payload w) s.timeNow = some (convert (payload w) s.timeNow) := by
      simp [payload_length hw]
    simp [acceptWindow, hp, execPush, hc]

/-- What SYNC_STEP can do: one of the four cases of 43_synchronizer.md R172. -/
theorem exec_syncStep_cases {s t : State} (h : exec .syncStep s = .next t) :
    (s.pstate = .run ∧ 24 ≤ s.buf.length) ∧
    ((classify (s.buf.take 24) = .skip ∧
        t = (s.consume 1).emit (.skip (byteAt (s.buf.take 24) 0))) ∨
     (classify (s.buf.take 24) = .typeReject ∧
        t = (s.consume 24).emit (.typeReject (msgType (s.buf.take 24)))) ∨
     (classify (s.buf.take 24) = .crcReject ∧
        t = (s.consume 24).emit
          (.crcReject (crc32 ((s.buf.take 24).take 20)) (crcField (s.buf.take 24)))) ∨
     (classify (s.buf.take 24) = .accept ∧ 1 ≤ s.cfgCap ∧
        t = (s.accepting (s.buf.take 24)).pushSample
          (convert (payload (s.buf.take 24)) s.timeNow))) := by
  simp only [exec, execSyncStep] at h
  split at h
  case isFalse => cases h
  case isTrue he =>
    rw [State.syncEnabled_iff] at he
    refine ⟨he, ?_⟩
    have hw : (s.buf.take 24).length = 24 := by simp [he.2]
    simp only [runWindow] at h
    split at h <;> rename_i hcl
    · rw [acceptWindow_next hw] at h
      exact .inr (.inr (.inr ⟨hcl, h.1, h.2.symm⟩))
    · exact .inr (.inr (.inl ⟨hcl, by simpa [crcRejectWindow, consumedBytes] using h.symm⟩))
    · exact .inr (.inl ⟨hcl, by simpa [typeRejectWindow, consumedBytes] using h.symm⟩)
    · exact .inl ⟨hcl, by simpa [skipWindow, consumedBytes] using h.symm⟩

/-- A window's own instruction is SYNC_STEP where that window stands. -/
theorem exec_window_of_next {i : Instr} {w : List Byte} {c : WindowClass} {s t : State}
    (hi : i = c.toInstr w) (h : exec i s = .next t) :
    exec .syncStep s = .next t ∧ s.buf.take 24 = w ∧ classify w = c := by
  subst hi
  cases c <;>
    simp only [WindowClass.toInstr, exec, execAccept, execCrcReject, execTypeReject, execSkip] at h <;>
    split at h <;>
    first
    | cases h; done
    | rename_i hg
      rw [State.atWindow_iff] at hg
      obtain ⟨he, hw, hcl⟩ := hg
      refine ⟨?_, hw, hcl⟩
      have hs : s.syncEnabled = true := by rw [State.syncEnabled_iff]; exact he
      simp only [exec, execSyncStep, hs, if_true, runWindow, hw, hcl]
      exact h

/-- The constructors whose step is a SYNC_STEP. -/
def isSyncInstr (i : Instr) : Bool :=
  match i with
  | .syncStep => true
  | .accept _ => true
  | .crcReject _ => true
  | .typeReject _ => true
  | .skip _ => true
  | _ => false

/-- What any instruction can do: if it answers a next state, it is one of these. -/
theorem exec_cases {i : Instr} {s t : State} (h : exec i s = .next t) :
    (i = .reset ∧ t = s.resetRegisters) ∨
    (i = .start ∧ s.pstate ≠ .run ∧ t = s.openSession) ∨
    (i = .stop ∧ t = { s with stop := true }) ∨
    (∃ c, i = .feed c ∧
      ((s.readEnabled = true ∧ t = s.append c) ∨ (s.feedHeld = true ∧ t = s))) ∨
    (i = .terr ∧ s.readEnabled = true ∧ t = s.raiseTransportError) ∨
    (i = .drain ∧ t = s.drainAll) ∨
    (i = .rdstat ∧ t = s.answer (.status s.status s.q.length s.buf.length)) ∨
    (∃ d, i = .crc d ∧ t = s.answer (.crc (crc32 d))) ∨
    (∃ p, i = .conv p ∧ p.length = 14 ∧ t = s.drawn.answer (.sample (convert p s.timeNow))) ∨
    (i = .observeStop ∧ s.stopEnabled = true ∧ t = s.halt.emit .stopped) ∨
    (i = .push ∧ ∃ m, s.inflight = some m ∧ 1 ≤ s.cfgCap ∧ t = s.unstage.pushSample m) ∨
    (isSyncInstr i = true ∧ exec .syncStep s = .next t) := by
  cases i with
  | reset => exact .inl ⟨rfl, ((exec_reset_next s t).mp h).symm⟩
  | start =>
    obtain ⟨hr, rfl⟩ := (exec_start_next s t).mp h
    exact .inr (.inl ⟨rfl, hr, rfl⟩)
  | stop => exact .inr (.inr (.inl ⟨rfl, ((exec_stop_next s t).mp h).symm⟩))
  | feed c =>
    refine .inr (.inr (.inr (.inl ⟨c, rfl, ?_⟩)))
    rcases (exec_feed_next c s t).mp h with ⟨hr, rfl⟩ | ⟨hr, rfl⟩
    · exact .inl ⟨hr, rfl⟩
    · exact .inr ⟨hr, rfl⟩
  | terr =>
    obtain ⟨hr, rfl⟩ := (exec_terr_next s t).mp h
    exact .inr (.inr (.inr (.inr (.inl ⟨rfl, hr, rfl⟩))))
  | drain =>
    exact .inr (.inr (.inr (.inr (.inr (.inl ⟨rfl, ((exec_drain_next s t).mp h).symm⟩)))))
  | rdstat =>
    exact .inr (.inr (.inr (.inr (.inr (.inr (.inl ⟨rfl, ((exec_rdstat_next s t).mp h).symm⟩))))))
  | crc d =>
    refine .inr (.inr (.inr (.inr (.inr (.inr (.inr (.inl ⟨d, rfl, ?_⟩)))))))
    exact ((exec_crc_next d s t).mp h).symm
  | conv p =>
    obtain ⟨hp, rfl⟩ := (exec_conv_next p s t).mp h
    exact .inr (.inr (.inr (.inr (.inr (.inr (.inr (.inr (.inl ⟨p, rfl, hp, rfl⟩))))))))
  | observeStop =>
    obtain ⟨hr, rfl⟩ := (exec_observeStop_next s t).mp h
    exact .inr (.inr (.inr (.inr (.inr (.inr (.inr (.inr (.inr (.inl ⟨rfl, hr, rfl⟩)))))))))
  | push =>
    obtain ⟨m, hm, hc, rfl⟩ := (exec_push_next s t).mp h
    exact .inr (.inr (.inr (.inr (.inr (.inr (.inr (.inr (.inr (.inr
      (.inl ⟨rfl, m, hm, hc, rfl⟩))))))))))
  | syncStep =>
    exact .inr (.inr (.inr (.inr (.inr (.inr (.inr (.inr (.inr (.inr (.inr ⟨rfl, h⟩))))))))))
  | accept w =>
    exact .inr (.inr (.inr (.inr (.inr (.inr (.inr (.inr (.inr (.inr (.inr
      ⟨rfl, (exec_window_of_next (c := .accept) rfl h).1⟩))))))))))
  | crcReject w =>
    exact .inr (.inr (.inr (.inr (.inr (.inr (.inr (.inr (.inr (.inr (.inr
      ⟨rfl, (exec_window_of_next (c := .crcReject) rfl h).1⟩))))))))))
  | typeReject w =>
    exact .inr (.inr (.inr (.inr (.inr (.inr (.inr (.inr (.inr (.inr (.inr
      ⟨rfl, (exec_window_of_next (c := .typeReject) rfl h).1⟩))))))))))
  | skip w =>
    exact .inr (.inr (.inr (.inr (.inr (.inr (.inr (.inr (.inr (.inr (.inr
      ⟨rfl, (exec_window_of_next (c := .skip) rfl h).1⟩))))))))))

end Sys2Proof.Machine
end

