-- ==== Sys2Proof/Laws/Fetch.lean ====
section
/-! SUPPORT. What the fetch and one step can do, said once. -/

namespace Sys2Proof.Machine

/-- Two states that differ at most in the model's port and turns. -/
def State.SameCore (s s' : State) : Prop := s' = { s with port := s'.port, sched := s'.sched }

theorem State.SameCore.refl (s : State) : s.SameCore s := rfl

theorem State.SameCore.of_update (s : State) (p : List Transaction) (l : List Turn) :
    s.SameCore { s with port := p, sched := l } := rfl

theorem State.SameCore.trans {s t u : State} (h : s.SameCore t) (h' : t.SameCore u) : s.SameCore u := by
  unfold State.SameCore at *
  rw [h', h]

/-- Every field but the port and the turns is the same. -/
theorem State.SameCore.fields {s t : State} (h : s.SameCore t) :
    t.pstate = s.pstate ∧ t.stop = s.stop ∧ t.err = s.err ∧ t.buf = s.buf ∧ t.q = s.q ∧
    t.cfgCap = s.cfgCap ∧ t.cfgPolicy = s.cfgPolicy ∧ t.evlog = s.evlog ∧
    t.inflight = s.inflight ∧ t.draws = s.draws ∧ t.results = s.results := by
  unfold State.SameCore at h
  rw [h]
  simp

theorem portFetch_run {l : List Turn} {s s' : State} {i : Instr}
    (h : portFetch l s = .run i s') : s.SameCore s' := by
  unfold portFetch at h
  split at h
  · cases h
  · split at h <;> try cases h
    split at h
    · cases h
    · split at h <;> cases h <;> rfl

theorem portFetch_pass {l : List Turn} {s s' : State}
    (h : portFetch l s = .pass s') : s.SameCore s' := by
  unfold portFetch at h
  split at h
  · cases h; rfl
  · split at h <;> try cases h
    · rfl
    · split at h
      · cases h
      · split at h <;> cases h

theorem producerFetch_run {l : List Turn} {s s' : State} {i : Instr}
    (h : producerFetch l s = .run i s') : s.SameCore s' := by
  unfold producerFetch at h
  split at h <;> cases h
  rfl

theorem producerFetch_pass {l : List Turn} {s s' : State}
    (h : producerFetch l s = .pass s') : s.SameCore s' := by
  unfold producerFetch at h
  split at h <;> cases h
  rfl

/-- The fetch changes nothing but the port and the turns. -/
theorem fetch_run {s s' : State} {i : Instr} (h : fetch s = .run i s') : s.SameCore s' := by
  unfold fetch at h
  split at h
  · cases h; rfl
  · split at h
    · exact producerFetch_run h
    · exact portFetch_run h
    · split at h
      · exact producerFetch_run h
      · exact portFetch_run h

theorem fetch_pass {s s' : State} (h : fetch s = .pass s') : s.SameCore s' := by
  unfold fetch at h
  split at h
  · cases h
  · split at h
    · exact producerFetch_pass h
    · exact portFetch_pass h
    · split at h
      · exact producerFetch_pass h
      · exact portFetch_pass h

/-- On the port's turn, and under the eager schedule when the PRODUCER has no autonomous step, the fetch
is the port's. -/
theorem fetch_of_port_turn {s : State} (hi : s.inflight = none)
    (h : s.sched.head? = some .port ∨ (s.sched = [] ∧ s.autonomous = none)) :
    ∃ turns, fetch s = portFetch turns s := by
  rcases h with h | ⟨h, ha⟩
  · cases hs : s.sched with
    | nil => simp [hs] at h
    | cons a turns =>
      obtain rfl : a = .port := by simpa [hs] using h
      exact ⟨turns, by simp [fetch, hi, hs]⟩
  · exact ⟨[], by simp [fetch, hi, h, ha]⟩

/-- What one step can do: run an instruction in a state that differs in port and turns only, or let a
turn pass. -/
theorem step_cases {s t : State} (h : step s = .next t) :
    (∃ i s', fetch s = .run i s' ∧ s.SameCore s' ∧ exec i s' = .next t) ∨
    (fetch s = .pass t ∧ s.SameCore t) := by
  unfold step at h
  split at h
  · exact .inl ⟨_, _, ‹_›, fetch_run ‹_›, h⟩
  · cases h
  · cases h
    exact .inr ⟨‹_›, fetch_pass ‹_›⟩

end Sys2Proof.Machine
end

