-- ==== Sys2Proof/Laws/Fairness.lean ====
section
/-! SUPPORT. What a step of a run can do, said once, and what fairness gives. -/

namespace Sys2Proof.Machine

theorem Presents.refl (s : State) : Presents s s := ⟨[], [], by simp⟩

/-- What is presented between two steps changes the port and the turns only. -/
theorem Presents.sameCore {s s' : State} (h : Presents s s') : s.SameCore s' := by
  obtain ⟨commands, turns, rfl⟩ := h
  rfl

/-- One step of a run: an instruction from a state that differs in port and turns only, or none. -/
theorem Run.next_cases {r : Nat → State} (h : Run r) (n : Nat) :
    (∃ i s t, fetch (r n) = .run i s ∧ (r n).SameCore s ∧ exec i s = .next t ∧
      t.SameCore (r (n + 1))) ∨
    (r n).SameCore (r (n + 1)) := by
  obtain ⟨t, hs, hp⟩ := h n
  rcases step_cases hs with ⟨i, s, hf, hc, he⟩ | ⟨-, hc⟩
  · exact .inl ⟨i, s, t, hf, hc, he, hp.sameCore⟩
  · exact .inr (hc.trans hp.sameCore)

/-- A step of a run that takes an instruction is its meaning. -/
theorem Run.next_of_takes {r : Nat → State} (h : Run r) {i : Instr} {n : Nat}
    (ht : Takes i (r n)) :
    ∃ s t, (r n).SameCore s ∧ exec i s = .next t ∧ t.SameCore (r (n + 1)) := by
  obtain ⟨s, hf⟩ := ht
  obtain ⟨t, hs, hp⟩ := h n
  unfold step at hs
  rw [hf] at hs
  exact ⟨s, t, fetch_run hf, hs, hp.sameCore⟩

/-- Under fairness a DRAIN is taken again and again (92_eei_decisions.md D22). -/
theorem FairRun.drain_again {r : Nat → State} (h : FairRun r) (n : Nat) :
    ∃ m, n ≤ m ∧ Takes .drain (r m) :=
  h.2.2.2 n (fun _ _ => rfl)

/-- The eager schedule takes the PRODUCER's autonomous step wherever there is one. -/
theorem takes_autonomous_of_eager {s : State} {i : Instr} (hi : s.inflight = none)
    (hs : s.sched = []) (ha : s.autonomous = some i) : Takes i s := by
  refine ⟨{ s with sched := [] }, ?_⟩
  simp [fetch, hi, hs, ha, producerFetch]

end Sys2Proof.Machine
end

