-- ==== Sys2Proof/Laws/PerInstr.lean ====
section
/-! SUPPORT. Facts made instruction by instruction. -/

namespace Sys2Proof.Laws.EncodedLength

open Sys2Proof.Machine

/-- The encoding of a well-formed instruction is one byte (format N and the trace codes), three and
its data (L), fifteen (P), or a window of 24 (30_encoding.md R88, R90, R93). -/
def Statement (i : Instr) : Prop :=
  i.wellFormed = true →
    (encode i).length = 1 ∨ (encode i).length = 15 ∨ (encode i).length = 24 ∨
    (3 ≤ (encode i).length ∧ (encode i).length ≤ 65538)

theorem reset : Statement .reset := fun _ => .inl rfl
theorem start : Statement .start := fun _ => .inl rfl
theorem stop : Statement .stop := fun _ => .inl rfl
theorem feed (chunk : List Byte) : Statement (.feed chunk) := fun h => by
  have : chunk.length ≤ 65535 := by simpa [Instr.wellFormed] using h
  refine .inr (.inr (.inr ?_))
  simp [encode, lengthPrefixed, bytes16]
  omega
theorem terr : Statement .terr := fun _ => .inl rfl
theorem drain : Statement .drain := fun _ => .inl rfl
theorem rdstat : Statement .rdstat := fun _ => .inl rfl
theorem crc (data : List Byte) : Statement (.crc data) := fun h => by
  have : data.length ≤ 65535 := by simpa [Instr.wellFormed] using h
  refine .inr (.inr (.inr ?_))
  simp [encode, lengthPrefixed, bytes16]
  omega
theorem conv (payload : List Byte) : Statement (.conv payload) := fun h => by
  have : payload.length = 14 := by simpa [Instr.wellFormed] using h
  exact .inr (.inl (by simp [encode, this]))
theorem syncStep : Statement .syncStep := fun _ => .inl rfl
theorem observeStop : Statement .observeStop := fun _ => .inl rfl
theorem push : Statement .push := fun _ => .inl rfl

theorem window_length {c : WindowClass} {w : List Byte} (h : windowOf c w = true) : w.length = 24 := by
  simp only [windowOf, Bool.and_eq_true, beq_iff_eq] at h
  exact h.1

theorem accept (window : List Byte) : Statement (.accept window) :=
  fun h => .inr (.inr (.inl (window_length h)))
theorem crcReject (window : List Byte) : Statement (.crcReject window) :=
  fun h => .inr (.inr (.inl (window_length h)))
theorem typeReject (window : List Byte) : Statement (.typeReject window) :=
  fun h => .inr (.inr (.inl (window_length h)))
theorem skip (window : List Byte) : Statement (.skip window) :=
  fun h => .inr (.inr (.inl (window_length h)))

end Sys2Proof.Laws.EncodedLength
end

