-- ==== Sys2Proof/Tests/Slice0.lean ====
section
/-! SUPPORT. The model's own tests. Expected values are those of spec/95_test_vectors.md and of the
worked examples of the rules named. -/

namespace Sys2Proof.Tests

/- One theorem after another: the kernel evaluations below would otherwise each wait in a thread. -/
set_option Elab.async false

open Sys2Proof Sys2Proof.Machine

/-! ### Helpers -/

/-- A CORE of capacity 2 under a policy, in a session, with bytes buffered. -/
def running (buf : List Byte) (policy : Policy := .dropOldest) : State :=
  { State.powerOn 2 policy with pstate := .run, buf := buf }

/-- Bytes one agent presents, with the port's turn next. -/
def presenting (agent : Agent) (bytes : List Byte) (s : State) : State :=
  { s with port := [⟨agent, bytes⟩], sched := [.port] }

/-- Does an outcome give a next state that passes a check? -/
def gives (o : Outcome) (check : State → Bool) : Bool :=
  match o with
  | .next s => check s
  | .fault _ => false
  | .refused _ => false

/-- Is an outcome a refusal for a reason? -/
def refuses (o : Outcome) (r : Refusal) : Bool :=
  match o with
  | .next _ => false
  | .fault _ => false
  | .refused r' => r == r'

/-- Is an outcome the fault of a step that does not exist? -/
def hasNoStep (o : Outcome) : Bool :=
  match o with
  | .next _ => false
  | .fault .noStep => true
  | .refused _ => false

/-- A Sample with a sequence number and no value. -/
def sampleOf (seq : Byte) : Sample :=
  { ts := ⟨0⟩, seq := seq, vmask := 0#5, height := none, vv := none, roll := none, pitch := none, yaw := none }

/-- Frame A of section 2.2. -/
def frameA : List Byte :=
  [0x4E#8, 0x45#8, 0x01#8, 0x00#8, 0x02#8, 0x07#8, 0xE8#8, 0x03#8, 0x00#8, 0x00#8, 0x00#8,
    0x00#8, 0x00#8, 0x00#8, 0x00#8, 0x00#8, 0x01#8, 0x00#8, 0x00#8, 0x00#8, 0x7B#8, 0x8C#8,
    0x74#8, 0xFD#8]

/-- Frame B of section 2.2. -/
def frameB : List Byte :=
  [0x4E#8, 0x45#8, 0x01#8, 0x00#8, 0x02#8, 0xFF#8, 0xFF#8, 0xFF#8, 0xFF#8, 0x7F#8, 0x00#8,
    0x80#8, 0x01#8, 0x00#8, 0x00#8, 0x01#8, 0x1F#8, 0x00#8, 0x00#8, 0x00#8, 0x4C#8, 0x9D#8,
    0xB3#8, 0xD6#8]

/-- Frame A with its type byte 0x03 (section 2.4, S6). -/
def frameType3 : List Byte := frameA.set 4 0x03#8

/-- Frame A with its pad byte 0x01 (section 2.4, S7). -/
def framePad1 : List Byte := frameA.set 19 0x01#8

/-- Frame A with its first byte 0x4F (section 2.4, S9). -/
def frameNoMarker : List Byte := frameA.set 0 0x4F#8

/-- The payload of frame A (section 1.7). -/
def payloadA : List Byte := (frameA.drop 5).take 14

/-! ### WellFormed: each check refuses an ill-formed term -/

theorem test_wellFormed_feed_too_long :
    (Instr.feed (List.replicate 65536 0x00#8)).wellFormed = false := by
  simp only [Instr.wellFormed, List.length_replicate]; decide
theorem test_wellFormed_crc_too_long :
    (Instr.crc (List.replicate 65536 0x00#8)).wellFormed = false := by
  simp only [Instr.wellFormed, List.length_replicate]; decide
theorem test_wellFormed_conv_short :
    (Instr.conv (List.replicate 13 0x00#8)).wellFormed = false := by decide
theorem test_wellFormed_accept_bad_crc : (Instr.accept framePad1).wellFormed = false := by
  decide +kernel
theorem test_wellFormed_accept_short : (Instr.accept (frameA.take 23)).wellFormed = false := by
  decide +kernel
theorem test_wellFormed_crcReject_good_crc : (Instr.crcReject frameA).wellFormed = false := by
  decide +kernel
theorem test_wellFormed_typeReject_type_2 : (Instr.typeReject frameA).wellFormed = false := by
  decide +kernel
theorem test_wellFormed_skip_marker : (Instr.skip frameA).wellFormed = false := by
  decide +kernel
theorem test_wellFormed_accept_frameA : (Instr.accept frameA).wellFormed = true := by
  decide +kernel

/-! ### Decode: words written out from 30_encoding.md R88, R90, R91 -/

theorem test_decode_reset : decode .port [0x01#8] = .ok .reset := rfl
theorem test_decode_start : decode .port [0x02#8] = .ok .start := rfl
theorem test_decode_stop : decode .port [0x03#8] = .ok .stop := rfl
theorem test_decode_feed :
    decode .port [0x04#8, 0x02#8, 0x00#8, 0x4E#8, 0x45#8] = .ok (.feed [0x4E#8, 0x45#8]) := rfl
theorem test_decode_terr : decode .port [0x05#8] = .ok .terr := rfl
theorem test_decode_drain : decode .port [0x06#8] = .ok .drain := rfl
theorem test_decode_rdstat : decode .port [0x07#8] = .ok .rdstat := rfl
theorem test_decode_crc :
    decode .port [0x08#8, 0x05#8, 0x00#8, 0x78#8, 0x56#8, 0x34#8, 0x12#8, 0x9A#8]
      = .ok (.crc [0x78#8, 0x56#8, 0x34#8, 0x12#8, 0x9A#8]) := rfl
theorem test_decode_conv : decode .port (0x09#8 :: payloadA) = .ok (.conv payloadA) := rfl
theorem test_decode_syncStep : decode .trace [0x80#8] = .ok .syncStep := rfl
theorem test_decode_observeStop : decode .trace [0x81#8] = .ok .observeStop := rfl
theorem test_decode_push : decode .trace [0x82#8] = .ok .push := rfl
theorem test_decode_accept : decodeWindow frameA = some (.accept frameA) := by decide +kernel
theorem test_decode_crcReject : decodeWindow framePad1 = some (.crcReject framePad1) := by
  decide +kernel
theorem test_decode_typeReject : decodeWindow frameType3 = some (.typeReject frameType3) := by
  decide +kernel
theorem test_decode_skip : decodeWindow frameNoMarker = some (.skip frameNoMarker) := by
  decide +kernel
theorem test_decode_length_second_byte :
    commandLength [0x04#8, 0x01#8, 0x02#8] = some 516 := by decide
theorem test_decode_table_window :
    decodeTableWord 40 0x4E45000000 = some (.typeReject (layWindow 0x4E45000000)) := by
  decide +kernel
theorem test_decode_leaves_the_rest :
    decodeCommand [0x03#8, 0x06#8] = .ok (.stop, [0x06#8]) := rfl

/-! ### CKS: section 2.1 -/

theorem test_crc32_K8 : crc32 [0x78#8, 0x56#8, 0x34#8, 0x12#8] = 0xDF8A8A2B#32 := by decide +kernel
theorem test_crc32_K9 :
    crc32 [0x78#8, 0x56#8, 0x34#8, 0x12#8, 0x9A#8] = 0xDF8A8A2B#32 := by decide +kernel
theorem test_crc32_K14 :
    crc32 [0x00#8, 0x00#8, 0x00#8, 0x00#8, 0xFF#8, 0xFF#8, 0xFF#8, 0xFF#8] = 0xAE006622#32 := by
  decide +kernel
theorem test_crc32_K17 : crc32 (List.replicate 20 0x00#8) = 0x4E26540F#32 := by decide +kernel
theorem test_cksTicks_K15 :
    (cksTicks [0x01#8, 0x02#8, 0x03#8, 0x04#8] 33 cksStart).acc = 0x1DABE74F#32 := by
  decide +kernel

/-! ### CNV: the literals of 42_converter.md R148 and the table of section 2.3 -/

theorem test_kh64 : f64OfFraction 16784924 100000000 = Config.kh64 := by decide +kernel
theorem test_off64 : f64OfInt 1000 = Config.off64 := by decide +kernel
theorem test_kvv64 : f64OfFraction 9155413 1000000000 = Config.kvv64 := by decide +kernel
theorem test_kang64 : f64OfFraction 9587526 100000000000 = Config.kang64 := by decide +kernel
theorem test_height_1000 : scaleHeight 1000 = 0xC08A0134C1A8AC5C#64 := by decide +kernel
theorem test_height_max : scaleHeight 32767 = 0x40B193EA820FBA33#64 := by decide +kernel
theorem test_height_min : scaleHeight (-32768) = 0xC0B964157A3AAEA8#64 := by decide +kernel
theorem test_vv_100 : scaleVv 100 = 0x3FED4C1D44B464F6#64 := by decide +kernel
theorem test_vv_zero_is_positive : scaleVv 0 = 0x0000000000000000#64 := by decide +kernel
theorem test_angle_4660 : scaleAngle 4660 = 0x3FDC9805BCB7BEBA#64 := by decide +kernel
theorem test_angle_minus_400 : scaleAngle (-400) = 0xBFA3A29FF4F4D679#64 := by decide +kernel

/-- Frame B's Sample (section 2.3): every field at an extreme or a mixed pattern. -/
theorem test_convert_frameB :
    (cnv ((frameB.drop 5).take 14) ⟨9⟩) = some
      { ts := ⟨9⟩, seq := 0xFF#8, vmask := 0b11111#5,
        height := some 0xC08F4157C157A3AB#64, vv := some 0x4072BFED3B2F44D6#64,
        roll := some 0xC00922146CBE832A#64, pitch := some 0x3F1922146CBE832A#64,
        yaw := some 0x3F9922146CBE832A#64 } := by decide +kernel

/-- Frame E2's validity 0x1B (section 1.6): roll is absent although its raw bytes are not zero. -/
theorem test_cleared_validity_bit :
    ((cnv [0x10#8, 0x64#8, 0x00#8, 0x38#8, 0xFF#8, 0x2C#8, 0x01#8, 0x70#8, 0xFE#8, 0xF4#8, 0x01#8, 0x1B#8, 0xAA#8, 0xBB#8] ⟨0⟩).map (fun m => (m.vmask, m.roll, m.pitch)))
      = some (0b11011#5, none, some 0xBFA3A29FF4F4D679#64) := by decide +kernel

/-! ### One step of each instruction -/

/-- R220's worked example. -/
theorem test_reset_from_error :
    gives (exec .reset { State.powerOn 2 .dropOldest with
      pstate := .halted, err := .transport, q := [sampleOf 1] })
      (fun t => t == State.powerOn 2 .dropOldest) = true := by decide
/-- Section 2.6, T2. -/
theorem test_rdstat_drop_newest :
    gives (exec .rdstat (State.powerOn 2 .dropNewest))
      (fun t => t.results == [.status 0x00B0#16 0 0]) = true := by decide
/-- Section 2.6, T3. -/
theorem test_start_status :
    gives (exec .start (State.powerOn 2 .dropOldest)) (fun t => t.status == 0x0031#16) = true := by
  decide
/-- Section 2.6, T9. -/
theorem test_start_in_run : refuses (exec .start (running [])) .alreadyRunning = true := by decide
/-- Section 2.6, T6. -/
theorem test_stop_then_observeStop :
    gives (exec .stop (running [])) (fun s =>
      gives (exec .observeStop s) (fun t => t.status == 0x0036#16)) = true := by decide
/-- Section 2.6, T7. -/
theorem test_rdstat_after_error :
    gives (exec .rdstat { State.powerOn 4 .dropOldest with
      pstate := .halted, err := .transport, buf := [0x4E#8, 0x45#8, 0x01#8], q := [sampleOf 9] })
      (fun t => t.results == [.status 0x001A#16 1 3]) = true := by decide
/-- Section 2.6, T8. -/
theorem test_start_discards_residue :
    gives (exec .start { State.powerOn 2 .dropOldest with
      pstate := .halted, buf := [0x74#8, 0xFD#8], stop := true, q := [sampleOf 1] })
      (fun t => t == { running [] with q := [sampleOf 1] }) = true := by decide
/-- R183's worked example. -/
theorem test_feed_appends :
    gives (exec (.feed [0x4E#8, 0x45#8]) (running [])) (fun t => t.buf == [0x4E#8, 0x45#8]) = true := by
  decide
/-- Section 2.6, T10. -/
theorem test_feed_in_idle :
    refuses (exec (.feed [0x00#8]) (State.powerOn 2 .dropOldest)) .notReading = true := by decide
/-- Section 2.4, TERR. -/
theorem test_terr :
    gives (exec .terr (running []))
      (fun t => t.status == 0x003A#16 && t.evlog == [.transportError]) = true := by decide
/-- Section 2.6, T11. -/
theorem test_terr_after_stop :
    refuses (exec .terr { running [] with stop := true }) .notReading = true := by decide
/-- Section 2.5, Q7. -/
theorem test_drain :
    gives (exec .drain { running [] with q := [sampleOf 8, sampleOf 16] })
      (fun t => t.q == [] && t.results == [.samples [sampleOf 8, sampleOf 16]]) = true := by decide
/-- Section 2.6, T17. -/
theorem test_crc_in_idle :
    gives (exec (.crc [0x00#8, 0x00#8, 0x00#8, 0x00#8]) (State.powerOn 2 .dropOldest))
      (fun t => t.results == [.crc 0xC704DD7B#32]) = true := by decide +kernel
/-- R156's worked example, but for the drawn time. -/
theorem test_conv_payloadA :
    gives (exec (.conv payloadA) (State.powerOn 2 .dropOldest)) (fun t =>
      t.results.map (fun r => match r with
        | .sample m => m.height == some 0xC08A0134C1A8AC5C#64 && m.seq == 0x07#8 && m.vv == none
        | _ => false) == [true] && t.q == []) = true := by decide +kernel
/-- Section 2.3: payload 14 bytes, no other length. -/
theorem test_conv_short :
    refuses (exec (.conv (List.replicate 15 0x00#8)) (running [])) .precondition = true := by decide
/-- Section 2.4, S1. -/
theorem test_syncStep_accepts_frameA :
    gives (exec .syncStep (running frameA)) (fun t => t.buf == [] && t.evlog == [.accept 0x07#8] &&
      t.q.map (fun m => (m.seq, m.height)) == [(0x07#8, some 0xC08A0134C1A8AC5C#64)]) = true := by
  decide +kernel
/-- Section 2.4, S2: fewer than 24 bytes are not skipped. -/
theorem test_syncStep_waits :
    hasNoStep (exec .syncStep (running (List.replicate 23 0x00#8))) = true := by decide +kernel
/-- Section 2.4, S7. -/
theorem test_crcReject_records_both :
    gives (exec (.crcReject framePad1) (running framePad1)) (fun t =>
      t.buf == [] && t.evlog == [.crcReject 0x211916CC#32 0xFD748C7B#32]) = true := by decide +kernel
/-- Section 2.4, S5: the false candidate consumes 24 bytes of `4E 45` and frame A. -/
theorem test_typeReject_false_candidate :
    gives (exec .syncStep (running ([0x4E#8, 0x45#8] ++ frameA))) (fun t =>
      t.buf == [0x74#8, 0xFD#8] && t.evlog == [.typeReject 0x01#8] && t.q == []) = true := by
  decide +kernel
/-- Section 2.4, S6. -/
theorem test_typeReject :
    gives (exec (.typeReject frameType3) (running frameType3)) (fun t =>
      t.buf == [] && t.evlog == [.typeReject 0x03#8]) = true := by decide +kernel
/-- Section 2.4, S9. -/
theorem test_skip :
    gives (exec (.skip frameNoMarker) (running frameNoMarker)) (fun t =>
      t.buf == frameA.drop 1 && t.evlog == [.skip 0x4F#8]) = true := by decide +kernel
/-- Sections 2.4 and 2.5, Q4 on an accepted frame: ACCEPT, then the drop, in one step. -/
theorem test_accept_on_a_full_queue :
    gives (exec (.accept frameA) { running frameA .dropNewest with q := [sampleOf 1, sampleOf 2] })
      (fun t => t.q == [sampleOf 1, sampleOf 2] &&
        t.evlog == [.accept 0x07#8, .chDropNewest 0x07#8]) = true := by decide +kernel
/-- A window of another class is not accepted. -/
theorem test_accept_of_a_bad_window :
    hasNoStep (exec (.accept framePad1) (running framePad1)) = true := by decide +kernel
/-- R185's worked example. -/
theorem test_observeStop :
    gives (exec .observeStop { running [0x4E#8] with stop := true })
      (fun t => t.pstate == .halted && t.buf == [0x4E#8] && t.evlog == [.stopped]) = true := by decide
/-- Section 2.5, Q3. -/
theorem test_push_drops_oldest :
    gives (exec .push { running [] with q := [sampleOf 7, sampleOf 8], inflight := some (sampleOf 16) })
      (fun t => t.q == [sampleOf 8, sampleOf 16] && t.evlog == [.chDropOldest 0x07#8]) = true := by
  decide
/-- Section 2.5, Q6. -/
theorem test_push_drops_newest_cap_1 :
    gives (exec .push { State.powerOn 1 .dropNewest with
      q := [sampleOf 7], inflight := some (sampleOf 8) })
      (fun t => t.q == [sampleOf 7] && t.evlog == [.chDropNewest 0x08#8]) = true := by decide

/-! ### The port, construction and the assembler -/

/-- Section 2.6, T13. -/
theorem test_port_trace_code :
    refuses (step (presenting .host [0x80#8] (running []))) .illegalCommand = true := by decide
/-- Section 2.6, T14. -/
theorem test_port_truncated :
    refuses (step (presenting .host [0x08#8, 0x05#8, 0x00#8, 0x78#8, 0x56#8] (running [])))
      .truncatedCommand = true := by decide
/-- Section 2.6, T15. -/
theorem test_port_wrong_agent :
    refuses (step (presenting .host [0x06#8] (running []))) .wrongAgent = true := by decide
/-- R183: a FEED is held, not lost, while SYN works. -/
theorem test_port_holds_feed :
    gives (step (presenting .host [0x04#8, 0x00#8, 0x00#8] (running frameNoMarker))) (fun t =>
      t.evlog == [.skip 0x4F#8] && t.port.length == 1 && t.sched == [.port]) = true := by
  decide +kernel
/-- Section 2.6, T16. -/
theorem test_construct_cap_0 : refuses (construct 0 .dropOldest) .capInvalid = true := by decide
/-- Binary64 arithmetic by hand: 1 - 1 is +0, -0 - 0 is -0, 3 * 0.5 is 1.5, 1 - 2^-54 ties to 1. -/
theorem test_f64_by_hand :
    f64Sub 0x3FF0000000000000#64 0x3FF0000000000000#64 = 0x0000000000000000#64 ∧
    f64Sub 0x8000000000000000#64 0x0000000000000000#64 = 0x8000000000000000#64 ∧
    f64Mul 0x4008000000000000#64 0x3FE0000000000000#64 = 0x3FF8000000000000#64 ∧
    f64Sub 0x3FF0000000000000#64 0x3C90000000000000#64 = 0x3FF0000000000000#64 := by
  decide +kernel
/-- R95's example: FEEDFRAME expands to frame A. -/
theorem test_feedFrame_A : feedFrame [1, 7, 1000, 0, 0, 0, 0, 0x01] = some (.feed frameA) := by
  decide +kernel
/-- R94's example, with a comment and a blank line. -/
theorem test_assemble :
    (assemble ['F', 'E', 'E', 'D', ' ', '4', 'E', ' ', '4', '5', ' ', ';', 'x', '\n', '\n',
      'R', 'E', 'S', 'T', 'A', 'R', 'T']).map programBytes
      = some [0x04#8, 0x02#8, 0x00#8, 0x4E#8, 0x45#8, 0x03#8, 0x02#8] := by decide

/-! ### Witnesses: a state and operands that meet a statement's hypotheses together -/

/-- StartOpensASessionOutsideRun: one state for each clause. -/
theorem witness_start : (State.powerOn 2 .dropOldest).pstate = .idle ∧
    ({ State.powerOn 2 .dropOldest with pstate := .halted } : State).pstate = .halted ∧
    (running []).pstate = .run := by decide
/-- ConstructionNeedsACapacity, ResetClearsRegistersAndKeepsTheRest,
PowerOnAndResetLeaveTheResetState: the smallest capacity. -/
theorem witness_capacity : 1 ≤ (State.powerOn 1 .dropOldest).cfgCap := by decide
/-- StopSetsOnlyTheFlag. -/
theorem witness_stop : (running (List.replicate 23 0#8)).pstate = .run ∧
    (running (List.replicate 23 0#8)).buf.length < 24 := by decide
/-- FeedAppendsIsHeldOrRefused, first clause, and TerrEndsTheSession: 23 bytes, the most a read sees. -/
theorem witness_read : (running (List.replicate 23 0#8)).pstate = .run ∧
    (running (List.replicate 23 0#8)).stop = false ∧
    (running (List.replicate 23 0#8)).buf.length < 24 := by decide
/-- FeedAppendsIsHeldOrRefused, second clause: 24 bytes, the fewest that hold a FEED, and a FEED on
the port. -/
theorem witness_held :
    let s := presenting .host [0x04#8, 0x01#8, 0x00#8, 0x00#8] (running (List.replicate 24 0#8));
    s.pstate = .run ∧ s.stop = false ∧ 24 ≤ s.buf.length ∧ s.inflight = none ∧
    s.sched = .port :: [] ∧ s.port = [⟨.host, encode (.feed [0x00#8]) ++ []⟩] ∧
    [0x00#8].length ≤ 65535 := by decide
/-- FeedAppendsIsHeldOrRefused, third clause, and TerrEndsTheSession's refusal, in three ways. -/
theorem witness_not_reading : (State.powerOn 2 .dropOldest).pstate ≠ .run ∧
    ({ running [] with stop := true } : State).stop = true ∧
    ¬ ((running (List.replicate 24 0#8)).buf.length < 24) := by decide
/-- ObserveStopHalts, both clauses; StopTakesEffectWithinABound. -/
theorem witness_observeStop : let s := { running (List.replicate 23 0#8) with stop := true };
    s.pstate = .run ∧ s.stop = true ∧ s.buf.length < 24 ∧ s.sched = [] ∧ s.inflight = none ∧
    1 ≤ s.cfgCap ∧ ¬ ((running []).pstate = .run ∧ (running []).stop = true) := by decide
/-- StopTakesEffectWithinABound with a frame still buffered. -/
theorem witness_stop_busy : let s := { running frameA with stop := true };
    s.pstate = .run ∧ s.stop = true ∧ s.sched = [] ∧ s.inflight = none ∧ 1 ≤ s.cfgCap ∧
    24 ≤ s.buf.length := by decide
/-- ProducerStepsAreEnabledByTheTable, EverySampleIsAccountedFor, SamplesKeepTheirOrder,
EveryStepKeepsTheInvariant: a state
with the invariant, in a session, whose step gives a next state. -/
theorem witness_invariant : (running frameA).Inv ∧ gives (step (running frameA)) (fun _ => true) = true ∧
    (running []).Inv ∧ ({ running [] with stop := true } : State).Inv ∧
    (State.powerOn 2 .dropOldest).Inv := by
  refine ⟨by decide, by decide +kernel, by decide, by decide, by decide⟩
/-- EverySampleIsAccountedFor, the RESET case with a queued Sample. -/
theorem witness_reset_accounts : let s := presenting .host [0x01#8] { running [] with q := [sampleOf 1] };
    s.Inv ∧ gives (step s) (fun t => t.q == []) = true := by
  refine ⟨by decide, by decide⟩
/-- SkipDropsExactlyOneByte: either byte may be the wrong one. -/
theorem witness_skip : (running frameNoMarker).pstate = .run ∧ 24 ≤ (running frameNoMarker).buf.length ∧
    byteAt (running frameNoMarker).buf 0 ≠ 0x4E#8 ∧
    byteAt (running (frameA.set 1 0x46#8)).buf 1 ≠ 0x45#8 ∧
    24 ≤ (running (frameA.set 1 0x46#8)).buf.length := by decide
/-- TypeRejectDropsTheWindow. -/
theorem witness_typeReject : let s := running frameType3;
    s.pstate = .run ∧ 24 ≤ s.buf.length ∧ byteAt s.buf 0 = 0x4E#8 ∧ byteAt s.buf 1 = 0x45#8 ∧
    byteAt s.buf 4 ≠ 0x02#8 := by decide
/-- CrcRejectDropsTheWindow. -/
theorem witness_crcReject : let s := running framePad1;
    s.pstate = .run ∧ 24 ≤ s.buf.length ∧ byteAt s.buf 0 = 0x4E#8 ∧ byteAt s.buf 1 = 0x45#8 ∧
    byteAt s.buf 4 = 0x02#8 ∧ crc32 (s.buf.take 20)
      ≠ le32 (byteAt s.buf 20) (byteAt s.buf 21) (byteAt s.buf 22) (byteAt s.buf 23) := by
  decide +kernel
/-- AcceptConvertsAndPushes, NothingIsAcceptedWithoutAMatchingCrc's conclusion. -/
theorem witness_accept : let s := running frameA;
    s.pstate = .run ∧ 24 ≤ s.buf.length ∧ 1 ≤ s.cfgCap ∧ byteAt s.buf 0 = 0x4E#8 ∧
    byteAt s.buf 1 = 0x45#8 ∧ byteAt s.buf 4 = 0x02#8 ∧ crc32 (s.buf.take 20)
      = le32 (byteAt s.buf 20) (byteAt s.buf 21) (byteAt s.buf 22) (byteAt s.buf 23) := by
  decide +kernel
/-- NothingIsAcceptedWithoutAMatchingCrc: a step that accepts. -/
theorem witness_accepting_step : (running frameA).inflight = none ∧
    gives (step (running frameA)) (fun t => t.accepts != (running frameA).accepts) = true := by
  refine ⟨rfl, by decide +kernel⟩
/-- SyncStepRunsTheWindowInstruction: a window, none, and a window of another class. -/
theorem witness_window_instruction : (running frameA).pstate = .run ∧
    decodeWindow (running frameA).buf = some (.accept frameA) ∧
    decodeWindow (running (frameA.take 23)).buf = none ∧
    decodeWindow (running framePad1).buf ≠ some (.accept framePad1) ∧
    decodeWindow (running frameA).buf ≠ some (.crcReject frameA) ∧
    decodeWindow (running frameA).buf ≠ some (.typeReject frameA) ∧
    decodeWindow (running frameA).buf ≠ some (.skip frameA) := by decide +kernel
/-- WindowClassesFollowMasksAndMatches: a window of each class. -/
theorem witness_classes : frameA.length = 24 ∧ classify frameA = .accept ∧
    classify framePad1 = .crcReject ∧ classify frameType3 = .typeReject ∧
    classify frameNoMarker = .skip := by decide +kernel
/-- SyncStepsMakeProgressToQuiescence, TheStreamDeterminesTheSteps. -/
theorem witness_progress : gives (exec .syncStep (running frameA)) (fun _ => true) = true ∧
    (running frameA).pstate = .run ∧ 1 ≤ (running frameA).cfgCap := by decide +kernel
/-- ChunkingDoesNotMatter: frame A in chunks of 10 and 14 bytes (section 2.4). -/
theorem witness_chunking : (running []).pstate = .run ∧ (running []).stop = false ∧
    (running []).buf.length < 24 ∧ 1 ≤ (running []).cfgCap ∧
    [frameA.take 10, frameA.drop 10].flatten = frameA := by decide
/-- NoiseBeforeAFrameIsSkipped: section 2.4, S4. -/
theorem witness_noise : let noise := [0x45#8, 0x4E#8, 0x00#8, 0x4E#8];
    (running []).pstate = .run ∧ (running []).inflight = none ∧
    (running []).q.length < (running []).cfgCap ∧ frameA.length = 24 ∧ classify frameA = .accept ∧
    (∀ j, j + 1 < noise.length → ¬ (byteAt noise j = 0x4E#8 ∧ byteAt noise (j + 1) = 0x45#8)) := by
  refine ⟨rfl, rfl, by decide, rfl, by decide +kernel, ?_⟩
  intro j hj
  have h : ∀ k < 4, ¬ (byteAt [0x45#8, 0x4E#8, 0x00#8, 0x4E#8] k = 0x4E#8 ∧
      byteAt [0x45#8, 0x4E#8, 0x00#8, 0x4E#8] (k + 1) = 0x45#8) := by decide
  simp only [List.length_cons, List.length_nil] at hj
  exact h j (by omega)
/-- BackToBackFramesGiveBothSamples: frames A and B. -/
theorem witness_back_to_back : (running []).pstate = .run ∧ (running []).inflight = none ∧
    (running []).q.length + 1 < (running []).cfgCap ∧ frameA.length = 24 ∧ classify frameA = .accept ∧
    frameB.length = 24 ∧ classify frameB = .accept := by decide +kernel
/-- PushAppendsWhenThereIsRoom: one place left. -/
theorem witness_push_room :
    let s := { running [] with q := [sampleOf 7], inflight := some (sampleOf 8) };
    s.inflight = some (sampleOf 8) ∧ s.q.length < s.cfgCap ∧ s.q.length + 1 = s.cfgCap := by decide
/-- PushReplacesTheOldestWhenFull and PushLosesTheNewestWhenFull: a full queue of capacity 1. -/
theorem witness_push_full :
    let s := { State.powerOn 1 .dropOldest with q := [sampleOf 7], inflight := some (sampleOf 8) };
    s.inflight = some (sampleOf 8) ∧ s.q = sampleOf 7 :: [] ∧ s.q.length = s.cfgCap ∧
    s.cfgPolicy = .dropOldest ∧ 1 ≤ s.cfgCap ∧
    ({ s with cfgPolicy := .dropNewest } : State).cfgPolicy = .dropNewest := by decide
/-- DrainReturnsAndEmptiesTheBacklog. -/
theorem witness_drain : (running []).q = [] ∧ 1 ≤ (running []).cfgCap := by decide
/-- TheConsumerOnlyDrains: on the port's turn while SYN has work, and under the eager schedule. -/
theorem witness_consumer :
    let s := presenting .consumer [0x06#8] (running frameA);
    let e := { presenting .consumer [0x06#8] (running []) with sched := [] };
    s.inflight = none ∧ s.sched.head? = some .port ∧ s.port = [⟨.consumer, [0x06#8]⟩] ∧
    [0x06#8] ≠ [] ∧ gives (step s) (fun _ => true) = true ∧
    e.inflight = none ∧ e.sched = [] ∧ e.autonomous = none ∧ e.port = [⟨.consumer, [0x06#8]⟩] ∧
    gives (step e) (fun _ => true) = true := by decide
/-- TrailingBytesAreNotRead: a word and three bytes; three bytes alone. -/
theorem witness_trailing : [0x78#8, 0x56#8, 0x34#8, 0x12#8].length % 4 = 0 ∧
    [0x9A#8, 0x00#8, 0x01#8].length ≤ 3 := by decide
/-- ChecksumIsAffine. -/
theorem witness_affine : [0xFF#8, 0xFF#8, 0xFF#8, 0xFF#8].length
    = [0x01#8, 0x00#8, 0x00#8, 0x00#8].length := by decide
/-- AOneWordChangeIsDetected: a change of one bit in a word, and of the first and last checked bytes. -/
theorem witness_word_change : ([] : List Byte).length % 4 = 0 ∧
    [0x00#8, 0x00#8, 0x00#8, 0x00#8].length = 4 ∧ [0x01#8, 0x00#8, 0x00#8, 0x00#8].length = 4 ∧
    [0x00#8, 0x00#8, 0x00#8, 0x00#8] ≠ [0x01#8, 0x00#8, 0x00#8, 0x00#8] ∧
    frameA.length = 24 ∧ crcOk frameA = true ∧ 0 < 20 ∧ 0x4F#8 ≠ byteAt frameA 0 ∧
    19 < 20 ∧ 0x01#8 ≠ byteAt frameA 19 := by decide +kernel
/-- WorkRegistersReachTheChecksum: exactly enough ticks for two words and a trailing byte. -/
theorem witness_ticks : 33 * ((List.replicate 9 0x00#8).length / 4) ≤ 66 := by decide
/-- ConvReturnsTheSample and ConversionIsTheReferenceFunction: 14 bytes, and 13 and 15. -/
theorem witness_conv : payloadA.length = 14 ∧ (payloadA.drop 1).length ≠ 14 ∧
    (0x00#8 :: payloadA).length ≠ 14 := by decide
/-- RoundingIsToNearestEven: a tie between two even and odd neighbours. -/
theorem witness_rounding : 0 < 2 ∧ f64Finite (f64Round true 3 2) = true ∧
    f64Finite 0x0000000000000001#64 = true ∧ f64Mag (f64Round true 3 2) = 2 ∧
    f64MaxMag ≤ 1 * f64MaxMag := by decide +kernel
/-- ProductsAndDifferencesAreRoundedExactly: finite operands at the bounds, and equal ones. -/
theorem witness_rounded_operations :
    f64Finite 0x7FEFFFFFFFFFFFFF#64 = true ∧ f64Finite 0x3FF0000000000000#64 = true ∧
    f64Mag 0x7FEFFFFFFFFFFFFF#64 * f64Mag 0x3FF0000000000000#64 ≤ f64Units * f64MaxMag ∧
    |f64Val 0x7FEFFFFFFFFFFFFF#64 - f64Val 0x0000000000000000#64| ≤ f64MaxMag ∧
    f64Val 0x8000000000000000#64 = f64Val 0x0000000000000000#64 := by decide +kernel
/-- DecodeOfEncodeIsTheInstruction: one instruction of each space. -/
theorem witness_wellFormed : (Instr.feed [0x00#8]).wellFormed = true ∧
    (Instr.feed [0x00#8]).space = .port ∧ Instr.push.wellFormed = true ∧
    (Instr.accept frameA).wellFormed = true := by decide +kernel
/-- DecodedBytesAreTheEncoding: a chunk of 256 bytes, whose length needs the second length byte. -/
theorem witness_decoded :
    decodeCommand ([0x04#8, 0x00#8, 0x01#8] ++ List.replicate 257 0x00#8)
      = .ok (.feed (List.replicate 256 0x00#8), [0x00#8]) := by decide +kernel
/-- ThePortRefusesByName: the boundaries of its clauses. -/
theorem witness_port_refusals :
    (presenting .host [0x0A#8] (running [])).inflight = none ∧
    (presenting .host [0x0A#8] (running [])).sched.head? = some .port ∧
    ({ presenting .host [0x0A#8] (running []) with sched := [] } : State).autonomous = none ∧
    (presenting .host [0x0A#8] (running [])).port = [⟨.host, [0x0A#8]⟩] ∧
    0x0A ≤ (0x0A#8).toNat ∧ [0x05#8].length < 2 ∧
    ([] : List Byte).length < (0x01#8).toNat + 256 * (0x00#8).toNat ∧
    (List.replicate 255 0x00#8).length < (0x00#8).toNat + 256 * (0x01#8).toNat ∧
    (List.replicate 13 0x00#8).length < 14 ∧
    decodeCommand [0x06#8] = .ok (.drain, []) ∧ Instr.drain.issuer ≠ .host := by decide +kernel
/-- StepRunsTheDecodedCommand: on the port's turn, and under the eager schedule. -/
theorem witness_command : let s := presenting .host [0x07#8, 0x03#8] (running []);
    s.inflight = none ∧ s.port = [⟨.host, [0x07#8, 0x03#8]⟩] ∧
    decodeCommand [0x07#8, 0x03#8] = .ok (.rdstat, [0x03#8]) ∧ Instr.rdstat.issuer = .host ∧
    isHeld .rdstat s = false ∧ s.sched = [.port] ∧ ({ s with sched := [] } : State).autonomous = none := by
  decide
/-- StepRunsTheAutonomousStep: SYNC_STEP, OBSERVE_STOP, and nothing to do. -/
theorem witness_autonomous : (running frameA).inflight = none ∧ (running frameA).sched = [] ∧
    (running frameA).autonomous = some .syncStep ∧
    ({ running [] with stop := true } : State).autonomous = some .observeStop ∧
    (running []).autonomous = none ∧ (running []).port = [] := by decide
/-- MemReadIsLittleEndianInsideTheBuffer: the last four bytes. -/
theorem witness_memRead : 20 + 4 ≤ (running frameA).buf.length ∧ 23 + 1 ≤ (running frameA).buf.length ∧
    22 + 2 ≤ (running frameA).buf.length := by decide
/-- ConfigurationIsNeverWritten, TheEventLogOnlyGrowsAndIsNeverRead: a step that writes the log, a
construction at the smallest capacity, a RESET. -/
theorem witness_step :
    gives (step (running frameNoMarker)) (fun t => t.evlog.length == 1) = true ∧
    gives (construct 1 .dropNewest) (fun t => t.cfgCap == 1) = true ∧
    gives (exec .reset (running [])) (fun _ => true) = true := by
  refine ⟨by decide +kernel, by decide, by decide⟩
/-- OnlyTheHostWritesTheStopFlag, TheBufferChangesOnlyAsItsRulesSay, OnlyTerrRaisesTheTransportError:
each of the instructions they name answers a next state. -/
theorem witness_exec : gives (exec .stop (running [])) (fun t => t.stop) = true ∧
    gives (exec .reset (running [])) (fun _ => true) = true ∧
    gives (exec .start (State.powerOn 2 .dropOldest)) (fun _ => true) = true ∧
    gives (exec (.feed [0x00#8]) (running [])) (fun t => t.buf == [0x00#8]) = true ∧
    gives (exec .terr (running [])) (fun t => t.err == .transport) = true ∧
    (running []).err ≠ .transport := by decide
/-- HaltedIsLeftOnlyByStartOrReset: both ways out. -/
theorem witness_halted : let s := { running [0x4E#8] with pstate := .halted, stop := true };
    s.pstate = .halted ∧ gives (exec .start s) (fun t => t.pstate != .halted) = true ∧
    gives (exec .reset s) (fun t => t.pstate != .halted) = true := by decide

/-- A run without end: a stopped session with 24 bytes of noise and a queued Sample, while the CONSUMER
presents a DRAIN before every step. -/
def stoppingRun : Nat → State
  | 0 => { running (List.replicate 24 0x00#8) with
      stop := true, q := [sampleOf 1], port := [⟨.consumer, [0x06#8]⟩] }
  | 1 => { running (List.replicate 23 0x00#8) with
      stop := true, q := [sampleOf 1], port := [⟨.consumer, [0x06#8]⟩], evlog := [.skip 0x00#8] }
  | 2 => { running (List.replicate 23 0x00#8) with
      pstate := .halted, stop := true, q := [sampleOf 1], port := [⟨.consumer, [0x06#8]⟩],
      evlog := [.skip 0x00#8, .stopped] }
  | n + 3 => { running (List.replicate 23 0x00#8) with
      pstate := .halted, stop := true, port := [⟨.consumer, [0x06#8]⟩],
      evlog := [.skip 0x00#8, .stopped],
      results := .samples [sampleOf 1] :: List.replicate n (.samples []) }

/-- The states of `stoppingRun` follow each other. -/
theorem stoppingRun_run : Run stoppingRun
  | 0 => ⟨stoppingRun 1, rfl, Presents.refl _⟩
  | 1 => ⟨stoppingRun 2, rfl, Presents.refl _⟩
  | 2 => ⟨{ stoppingRun 3 with port := [] }, rfl,
      [⟨.consumer, [0x06#8]⟩], [], rfl⟩
  | n + 3 => by
    refine ⟨{ stoppingRun (n + 4) with port := [] }, ?_, [⟨.consumer, [0x06#8]⟩], [], rfl⟩
    have h : step (stoppingRun (n + 3)) = .next { stoppingRun (n + 3) with
        port := [], results := (stoppingRun (n + 3)).results ++ [.samples []] } := rfl
    rw [h]
    simp [stoppingRun, List.replicate_succ']

/-- FairRunsBecomeQuiescentAgain, FairRunsObserveTheStop and FairRunsDrainWhatIsQueued: a fair run that
starts in a stopped session with 24 bytes and a queued Sample. -/
theorem witness_fair_run : FairRun stoppingRun ∧ (stoppingRun 0).pstate = .run ∧
    (stoppingRun 0).stop = true ∧ sampleOf 1 ∈ (stoppingRun 0).q ∧
    (stoppingRun 0).buf.length = 24 := by
  refine ⟨⟨stoppingRun_run, fun n h => ?_, fun n h => ?_, fun n _ => ?_⟩, rfl, rfl, by decide, rfl⟩
  · have : (stoppingRun (n + 3)).syncEnabled = false := rfl
    rw [h (n + 3) (by omega)] at this
    cases this
  · have : (stoppingRun (n + 3)).stopEnabled = false := rfl
    rw [h (n + 3) (by omega)] at this
    cases this
  · exact ⟨n + 3, by omega, { stoppingRun (n + 3) with port := [] }, rfl⟩

end Sys2Proof.Tests
end

section
/-! The STATUS word bit by bit (10_state.md R35), and its value on reset registers (R38). -/

namespace Sys2Proof.Machine

@[simp] theorem State.terr_iff (s : State) : s.terr = true ↔ s.err = .transport := by
  simp [State.terr]

@[simp] theorem State.quiescent_iff (s : State) : s.quiescent = true ↔ s.buf.length < 24 := by
  simp [State.quiescent]

@[simp] theorem State.qempty_iff (s : State) : s.qempty = true ↔ s.q = [] := by
  simp [State.qempty]

@[simp] theorem State.qfull_iff (s : State) : s.qfull = true ↔ s.q.length = s.cfgCap := by
  simp [State.qfull]

/-- The table of 10_state.md R35: what stands in each bit of STATUS. -/
@[simp] def State.statusBit (s : State) : Nat → Bool
  | 0 => s.pstate.code.getLsbD 0
  | 1 => s.pstate.code.getLsbD 1
  | 2 => s.stop
  | 3 => s.terr
  | 4 => s.quiescent
  | 5 => s.qempty
  | 6 => s.qfull
  | 7 => decide (s.cfgPolicy = .dropNewest)
  | _ => false

/-- The concatenation that makes up STATUS has the bits of the table. -/
theorem State.status_getLsbD (s : State) (i : Nat) : s.status.getLsbD i = s.statusBit i := by
  have hpolicy : (policyCode s.cfgPolicy).getLsbD 0 = decide (s.cfgPolicy = .dropNewest) := by
    cases s.cfgPolicy <;> rfl
  unfold State.status
  change BitVec.getLsbD (w := 8 + 1 + 1 + 1 + 1 + 1 + 1 + 2) (_ ++ _) i = _
  simp only [flag, BitVec.getLsbD_append]
  match i with
  | 0 | 1 | 2 | 3 | 4 | 5 | 6 => simp
  | 7 => simpa using hpolicy
  | n + 8 => simp

@[simp] theorem State.status_getElem (s : State) (i : Nat) (hi : i < 16) :
    s.status[i] = s.statusBit i := by
  rw [← BitVec.getLsbD_eq_getElem, State.status_getLsbD]

@[simp] theorem State.status_pstate (s : State) : s.status.extractLsb' 0 2 = s.pstate.code := by
  apply BitVec.eq_of_getLsbD_eq
  intro i hi
  match i with
  | 0 | 1 => simp

@[simp] theorem State.status_reserved (s : State) : s.status.extractLsb' 8 8 = 0#8 := by
  apply BitVec.eq_of_getLsbD_eq
  intro i hi
  simp [State.status_getLsbD, Nat.add_comm 8 i]

/-- Settles O7: the flag bits are read off the table of bits, the two longer fields by their lemmas. -/
theorem statusWordHoldsItsFields : Obligations.StatusWordHoldsItsFields := by
  intro s
  refine ⟨?pstate, ?stop, ?terr, ?quiescent, ?qempty, ?qfull, ?policy, s.status_reserved⟩
  case pstate =>
    rw [State.status_pstate]
    cases s.pstate <;> rfl
  all_goals simp

/-- With every register at its reset value and room in the queue, only QUIESCENT, QEMPTY and POLICY
can be set. -/
theorem State.status_of_registers_reset {s : State} (hp : s.pstate = .idle) (hs : s.stop = false)
    (he : s.err = .none) (hb : s.buf = []) (hq : s.q = []) (hc : 1 ≤ s.cfgCap) :
    s.status = 0x0030#16 ||| ((policyCode s.cfgPolicy).zeroExtend 16 <<< 7) := by
  have hterr : s.terr = false := by simp [State.terr, he]
  have hquiescent : s.quiescent = true := by simp [hb]
  have hqempty : s.qempty = true := by simp [hq]
  have hqfull : s.qfull = false := by
    simp only [State.qfull, hq, List.length_nil, decide_eq_false_iff_not]
    omega
  simp only [State.status, hp, hs, hterr, hquiescent, hqempty, hqfull]
  cases s.cfgPolicy <;> rfl

/-- Settles O1: power-on is a literal and RESET is `resetRegisters`; both leave reset registers, so
one lemma gives STATUS. -/
theorem powerOnAndResetLeaveTheResetState : Obligations.PowerOnAndResetLeaveTheResetState := by
  refine ⟨fun cap policy => ?powerOn, fun s => ⟨s.resetRegisters, ?reset⟩⟩
  case powerOn =>
    exact ⟨rfl, rfl, rfl, rfl, rfl, rfl, rfl, rfl, fun hc =>
      State.status_of_registers_reset (s := State.powerOn cap policy) rfl rfl rfl rfl rfl hc⟩
  case reset =>
    exact ⟨(exec_reset_next s _).mpr rfl, rfl, rfl, rfl, rfl, rfl, rfl, rfl, rfl, fun hc =>
      State.status_of_registers_reset (s := s.resetRegisters) rfl rfl rfl rfl rfl hc⟩

end Sys2Proof.Machine
end

section
/-! The instructions of SYNC_STEP's windows as one, and who writes the stop flag (10_state.md R23). -/

namespace Sys2Proof.Machine

/-- A window's own instruction is SYNC_STEP in every state with that window at the front. -/
theorem exec_toInstr_eq_syncStep {c : WindowClass} {w : List Byte} {s : State}
    (hw : s.buf.take 24 = w) (hc : classify w = c) : exec (c.toInstr w) s = exec .syncStep s := by
  have hat : s.atWindow c w = s.syncEnabled := by simp [State.atWindow, hw, hc]
  subst hw
  cases c <;>
    simp [WindowClass.toInstr, exec, execAccept, execCrcReject, execTypeReject, execSkip, hat,
      execSyncStep, runWindow, hc]

theorem isSyncInstr_cases {i : Instr} (h : isSyncInstr i = true) :
    i = .syncStep ∨ ∃ c w, i = WindowClass.toInstr w c := by
  cases i with
  | syncStep => exact .inl rfl
  | accept w => exact .inr ⟨.accept, w, rfl⟩
  | crcReject w => exact .inr ⟨.crcReject, w, rfl⟩
  | typeReject w => exact .inr ⟨.typeReject, w, rfl⟩
  | skip w => exact .inr ⟨.skip, w, rfl⟩
  | _ => cases h

/-- Where a window's own instruction has a step, it is SYNC_STEP in every state with the same bytes
buffered. -/
theorem exec_eq_syncStep {i : Instr} {s t s' : State} (hi : isSyncInstr i = true)
    (h : exec i s = .next t) (hb : s'.buf = s.buf) : exec i s' = exec .syncStep s' := by
  obtain rfl | ⟨c, w, rfl⟩ := isSyncInstr_cases hi
  · rfl
  · obtain ⟨-, hw, hc⟩ := exec_window_of_next rfl h
    exact exec_toInstr_eq_syncStep (by rw [hb, hw]) hc

/-- A SYNC_STEP writes the buffer, the queue, the event log and the model's own draw count and Sample
in flight, and no other field. -/
theorem exec_syncStep_frame {s t : State} (h : exec .syncStep s = .next t) :
    t = { s with buf := t.buf, q := t.q, evlog := t.evlog, inflight := t.inflight, draws := t.draws } := by
  obtain ⟨-, ⟨-, rfl⟩ | ⟨-, rfl⟩ | ⟨-, rfl⟩ | ⟨-, -, rfl⟩⟩ := exec_syncStep_cases h
  case inr.inr.inr => rw [State.pushSample_frame]; rfl
  all_goals rfl

theorem exec_syncStep_stop {s t : State} (h : exec .syncStep s = .next t) : t.stop = s.stop := by
  rw [exec_syncStep_frame h]

/-- Settles O53: the instructions one by one, by what each can do. -/
theorem onlyTheHostWritesTheStopFlag : Obligations.OnlyTheHostWritesTheStopFlag := by
  intro i s t h
  rcases exec_cases h with ⟨rfl, rfl⟩ | ⟨rfl, -, rfl⟩ | ⟨rfl, rfl⟩ | ⟨c, rfl, ⟨-, rfl⟩ | ⟨-, rfl⟩⟩ |
    ⟨rfl, -, rfl⟩ | ⟨rfl, rfl⟩ | ⟨rfl, rfl⟩ | ⟨d, rfl, rfl⟩ | ⟨p, rfl, -, rfl⟩ | ⟨rfl, -, rfl⟩ |
    ⟨rfl, m, -, -, rfl⟩ | ⟨hi, hsync⟩
  -- SYNC_STEP and its windows: none of them is STOP, START or RESET
  pick_goal 13
  · refine ⟨?_, ?_, fun _ _ _ => exec_syncStep_stop hsync⟩
    · rintro rfl
      cases hi
    · rintro (rfl | rfl) <;> cases hi
  all_goals simp

end Sys2Proof.Machine
end

section
/-! The event log is only appended to and read by no step (10_state.md R32). One statement carries
both: from any log in place of its own, a step answers the same state but for the log, which it extends
by the same events. Put its own log in its place, and it says that the log is extended. -/

namespace Sys2Proof.Machine

/-- The state with another event log. -/
def State.withLog (log : List Event) (s : State) : State := { s with evlog := log }

@[simp] theorem State.withLog_self (s : State) : s.withLog s.evlog = s := rfl
@[simp] theorem State.withLog_buf (log : List Event) (s : State) : (s.withLog log).buf = s.buf := rfl
@[simp] theorem State.withLog_inflight (log : List Event) (s : State) :
    (s.withLog log).inflight = s.inflight := rfl
@[simp] theorem State.withLog_port (log : List Event) (s : State) : (s.withLog log).port = s.port := rfl
@[simp] theorem State.withLog_sched (log : List Event) (s : State) :
    (s.withLog log).sched = s.sched := rfl
@[simp] theorem State.withLog_autonomous (log : List Event) (s : State) :
    (s.withLog log).autonomous = s.autonomous := rfl
@[simp] theorem State.withLog_isHeld (log : List Event) (i : Instr) (s : State) :
    isHeld i (s.withLog log) = isHeld i s := rfl

/-- A PUSH records the same events whatever the log. -/
theorem State.pushSample_withLog (m : Sample) (s : State) :
    ∃ new, ∀ log, (s.withLog log).pushSample m = (s.pushSample m).withLog (log ++ new) := by
  by_cases hroom : s.q.length < s.cfgCap
  · exact ⟨[], fun log => by simp [State.pushSample, State.withLog, State.enqueue, hroom]⟩
  cases hp : s.cfgPolicy with
  | dropNewest =>
    exact ⟨[.chDropNewest m.seq],
      fun log => by simp [State.pushSample, State.withLog, State.emit, hroom, hp]⟩
  | dropOldest =>
    cases hq : s.q with
    | nil =>
      simp only [hq, List.length_nil] at hroom
      exact ⟨[], fun log => by
        simp [State.pushSample, State.withLog, State.replaceOldest, hroom, hp, hq]⟩
    | cons d rest =>
      simp only [hq, List.length_cons] at hroom
      exact ⟨[.chDropOldest d.seq], fun log => by
        simp [State.pushSample, State.withLog, State.replaceOldest, hroom, hp, hq]⟩

/-- From any log in place of its own, `s` is taken to `t` with the same events appended. -/
def LogBlind (f : State → Outcome) (s t : State) : Prop :=
  ∃ new, ∀ log, f (s.withLog log) = .next (t.withLog (log ++ new))

/-- The case of no event. -/
theorem LogBlind.of_quiet {f : State → Outcome} {s t : State}
    (h : ∀ log, f (s.withLog log) = .next (t.withLog log)) : LogBlind f s t :=
  ⟨[], fun log => by rw [List.append_nil]; exact h log⟩

theorem runWindow_logBlind {w : List Byte} {s t : State} (hw : w.length = 24)
    (h : runWindow w s = .next t) : LogBlind (runWindow w) s t := by
  unfold LogBlind
  unfold runWindow at *
  cases hc : classify w with
  | accept =>
    simp only [hc] at h ⊢
    obtain ⟨hcap, rfl⟩ := (acceptWindow_next hw).mp h
    obtain ⟨new, hnew⟩ := State.pushSample_withLog (convert (payload w) s.timeNow) (s.accepting w)
    refine ⟨.accept (seqField (payload w)) :: new, fun log => (acceptWindow_next hw).mpr ⟨hcap, ?_⟩⟩
    have hpush := hnew (log ++ [.accept (seqField (payload w))])
    rwa [List.append_assoc] at hpush
  | crcReject | typeReject | skip =>
    simp only [hc] at h ⊢
    cases h
    exact ⟨_, fun _ => rfl⟩

theorem exec_syncStep_of_enabled {s : State} (h : s.pstate = .run ∧ 24 ≤ s.buf.length) :
    exec .syncStep s = runWindow (s.buf.take 24) s :=
  if_pos ((State.syncEnabled_iff s).mpr h)

theorem exec_syncStep_logBlind {s t : State} (h : exec .syncStep s = .next t) :
    LogBlind (exec .syncStep) s t := by
  obtain ⟨hen, -⟩ := exec_syncStep_cases h
  rw [exec_syncStep_of_enabled hen] at h
  obtain ⟨new, hnew⟩ := runWindow_logBlind (by simp [hen.2]) h
  exact ⟨new, fun log => (exec_syncStep_of_enabled (s := s.withLog log) hen).trans (hnew log)⟩

theorem exec_logBlind {i : Instr} {s t : State} (h : exec i s = .next t) :
    LogBlind (exec i) s t := by
  rcases exec_cases h with ⟨rfl, rfl⟩ | ⟨rfl, hr, rfl⟩ | ⟨rfl, rfl⟩ |
    ⟨c, rfl, ⟨hr, rfl⟩ | ⟨hr, rfl⟩⟩ | ⟨rfl, hr, rfl⟩ | ⟨rfl, rfl⟩ | ⟨rfl, rfl⟩ | ⟨d, rfl, rfl⟩ |
    ⟨p, rfl, hp, rfl⟩ | ⟨rfl, hr, rfl⟩ | ⟨rfl, m, hm, hc, rfl⟩ | ⟨hi, hsync⟩
  · exact .of_quiet fun log => (exec_reset_next _ _).mpr rfl
  · exact .of_quiet fun log => (exec_start_next _ _).mpr ⟨hr, rfl⟩
  · exact .of_quiet fun log => (exec_stop_next _ _).mpr rfl
  · exact .of_quiet fun log => (exec_feed_next _ _ _).mpr (.inl ⟨hr, rfl⟩)
  · exact .of_quiet fun log => (exec_feed_next _ _ _).mpr (.inr ⟨hr, rfl⟩)
  · exact ⟨[.transportError], fun log => (exec_terr_next _ _).mpr ⟨hr, rfl⟩⟩
  · exact .of_quiet fun log => (exec_drain_next _ _).mpr rfl
  · exact .of_quiet fun log => (exec_rdstat_next _ _).mpr rfl
  · exact .of_quiet fun log => (exec_crc_next _ _ _).mpr rfl
  · exact .of_quiet fun log => (exec_conv_next _ _ _).mpr ⟨hp, rfl⟩
  · exact ⟨[.stopped], fun log => (exec_observeStop_next _ _).mpr ⟨hr, rfl⟩⟩
  · obtain ⟨new, hnew⟩ := State.pushSample_withLog m s.unstage
    exact ⟨new, fun log => (exec_push_next _ _).mpr ⟨m, hm, hc, hnew log⟩⟩
  · obtain ⟨new, hnew⟩ := exec_syncStep_logBlind hsync
    exact ⟨new, fun log => (exec_eq_syncStep hi h (s.withLog_buf log)).trans (hnew log)⟩

/-! ### The fetch and the step -/

/-- What comes next, with another event log in the state it names. -/
def Fetch.withLog (log : List Event) : Fetch → Fetch
  | .run i s => .run i (s.withLog log)
  | .refuse r => .refuse r
  | .pass s => .pass (s.withLog log)

theorem portFetch_withLog (turns : List Turn) (log : List Event) (s : State) :
    portFetch turns (s.withLog log) = (portFetch turns s).withLog log := by
  unfold portFetch
  rw [State.withLog_port]
  split
  case h_1 => rfl
  case h_2 t more _ =>
    split
    case h_4 i rest _ =>
      rw [State.withLog_isHeld]
      split_ifs <;> rfl
    all_goals rfl

theorem producerFetch_withLog (turns : List Turn) (log : List Event) (s : State) :
    producerFetch turns (s.withLog log) = (producerFetch turns s).withLog log := by
  unfold producerFetch
  rw [State.withLog_autonomous]
  cases s.autonomous <;> rfl

/-- The fetch does not read the log. -/
theorem fetch_withLog (log : List Event) (s : State) :
    fetch (s.withLog log) = (fetch s).withLog log := by
  unfold fetch
  rw [State.withLog_inflight, State.withLog_sched, State.withLog_autonomous]
  split
  · rfl
  · split
    · exact producerFetch_withLog _ log s
    · exact portFetch_withLog _ log s
    · split
      · exact producerFetch_withLog _ log s
      · exact portFetch_withLog _ log s

theorem step_logBlind {s t : State} (h : step s = .next t) : LogBlind step s t := by
  rcases step_cases h with ⟨i, s', hf, -, he⟩ | ⟨hf, -⟩
  · obtain ⟨new, hnew⟩ := exec_logBlind he
    exact ⟨new, fun log => by simpa [step, fetch_withLog, hf, Fetch.withLog] using hnew log⟩
  · exact .of_quiet fun log => by simp [step, fetch_withLog, hf, Fetch.withLog]

/-- Settles O52: the step is blind to the log, and from the log it finds it appends to that one. -/
theorem theEventLogOnlyGrowsAndIsNeverRead : Obligations.TheEventLogOnlyGrowsAndIsNeverRead := by
  refine ⟨fun _ _ => rfl, fun s t h => ?reset, fun s t h => ?step⟩
  case reset =>
    rw [← (exec_reset_next s t).mp h, State.resetRegisters_evlog]
  case step =>
    obtain ⟨new, hnew⟩ := step_logBlind h
    have hself : t = t.withLog (s.evlog ++ new) := by
      simpa [h] using hnew s.evlog
    exact ⟨new, congrArg State.evlog hself, hnew⟩

end Sys2Proof.Machine
end

section
/-! The window classes by masks over the first five bytes (30_encoding.md R88). A mask of whole bytes
keeps a byte or blanks it, so a masked comparison is one of the bytes kept, and the two masks are the
marker check and the marker check with the type check. -/

namespace Sys2Proof.Machine

/-! ### The masks -/

/-- A masked concatenation matches where both parts do. -/
theorem append_and_eq_append_iff {m n : Nat} (x mx ex : BitVec m) (y my ey : BitVec n) :
    (x ++ y) &&& (mx ++ my) = ex ++ ey ↔ x &&& mx = ex ∧ y &&& my = ey := by
  rw [BitVec.and_append]
  constructor
  · intro h
    constructor
    · simpa only [BitVec.extractLsb'_append_eq_left] using congrArg (BitVec.extractLsb' n m) h
    · simpa only [BitVec.extractLsb'_append_eq_right] using congrArg (BitVec.extractLsb' 0 n) h
  · rintro ⟨rfl, rfl⟩
    rfl

@[simp] theorem byte_and_ones (b : Byte) : b &&& 0xFF#8 = b := BitVec.and_allOnes

/-- The 40-bit value of R88, its width as the appends give it: the first five bytes of a window, byte
0 most significant. -/
def windowHead (w : List Byte) : BitVec (8 + 8 + 8 + 8 + 8) :=
  byteAt w 0 ++ byteAt w 1 ++ byteAt w 2 ++ byteAt w 3 ++ byteAt w 4

/-- A byte-wise mask and match of the first five bytes is one of each byte. -/
theorem windowHead_and_eq_iff (w : List Byte) (m₀ m₁ m₂ m₃ m₄ e₀ e₁ e₂ e₃ e₄ : Byte) :
    windowHead w &&& (m₀ ++ m₁ ++ m₂ ++ m₃ ++ m₄) = e₀ ++ e₁ ++ e₂ ++ e₃ ++ e₄ ↔
      (((byteAt w 0 &&& m₀ = e₀ ∧ byteAt w 1 &&& m₁ = e₁) ∧ byteAt w 2 &&& m₂ = e₂) ∧
        byteAt w 3 &&& m₃ = e₃) ∧ byteAt w 4 &&& m₄ = e₄ := by
  simp only [windowHead, append_and_eq_append_iff]

theorem isMarker_iff (w : List Byte) :
    isMarker w = true ↔ byteAt w 0 = 0x4E#8 ∧ byteAt w 1 = 0x45#8 := by
  simp [isMarker]

/-- The mask of TYPE_REJECT is the marker check. -/
theorem windowHead_marker_iff (w : List Byte) :
    windowHead w &&& 0xFFFF000000#40 = 0x4E45000000#40 ↔ isMarker w = true := by
  rw [isMarker_iff]
  exact (windowHead_and_eq_iff w 0xFF#8 0xFF#8 0#8 0#8 0#8 0x4E#8 0x45#8 0#8 0#8 0#8).trans (by simp)

/-- The mask of ACCEPT and CRC_REJECT is the marker check and the type check. -/
theorem windowHead_candidate_iff (w : List Byte) :
    windowHead w &&& 0xFFFF0000FF#40 = 0x4E45000002#40 ↔
      isMarker w = true ∧ msgType w = Config.supportedType := by
  rw [isMarker_iff]
  exact (windowHead_and_eq_iff w 0xFF#8 0xFF#8 0#8 0#8 0xFF#8 0x4E#8 0x45#8 0#8 0#8 0x02#8).trans
    (by simp [msgType])

/-! ### The classes -/

theorem classify_of_no_marker {w : List Byte} (hm : isMarker w ≠ true) : classify w = .skip :=
  if_neg hm

theorem classify_of_other_type {w : List Byte} (hm : isMarker w = true)
    (ht : msgType w ≠ Config.supportedType) : classify w = .typeReject := by
  rw [classify, if_pos hm, if_neg ht]

theorem classify_of_candidate {w : List Byte} (hm : isMarker w = true)
    (ht : msgType w = Config.supportedType) :
    classify w = if crcOk w then .accept else .crcReject := by
  rw [classify, if_pos hm, if_pos ht]

/-- Settles O17: the two masks are the first two checks of `classify`, whose branches are the rows of
the table in their priority order. -/
theorem windowClassesFollowMasksAndMatches : Obligations.WindowClassesFollowMasksAndMatches := by
  intro w _ v
  have hmarker : v &&& 0xFFFF000000#40 = 0x4E45000000#40 ↔ _ := windowHead_marker_iff w
  have hcandidate : v &&& 0xFFFF0000FF#40 = 0x4E45000002#40 ↔ _ := windowHead_candidate_iff w
  simp only [ne_eq, hmarker, hcandidate]
  by_cases hm : isMarker w = true
  case neg => simp [classify_of_no_marker hm, hm]
  case pos =>
    by_cases ht : msgType w = Config.supportedType
    case neg => simp [classify_of_other_type hm ht, hm, ht]
    case pos =>
      rw [classify_of_candidate hm ht]
      cases crcOk w <;> simp [hm, ht]

end Sys2Proof.Machine
end

section
/-! The checksum's reading of its bytes, word by word (41_checksum.md R122, R123), and the CRC command
(R130). -/

namespace Sys2Proof.Machine

/-- A sequence of whole words is read on its own, whatever follows it. -/
theorem cksWords_append (t : List Byte) : (s : List Byte) → s.length % 4 = 0 →
    cksWords (s ++ t) = cksWords s ++ cksWords t
  | [], _ => rfl
  | [_], hs | [_, _], hs | [_, _, _], hs => by simp at hs
  | a :: b :: c :: d :: rest, hs => by
    have hrest : rest.length % 4 = 0 := by
      simp only [List.length_cons] at hs
      omega
    simp only [List.cons_append, cksWords_cons, cksWords_append t rest hrest]

/-- After whole words, the checksum goes on from the accumulator they leave. -/
theorem crc32_append {s : List Byte} (hs : s.length % 4 = 0) (t : List Byte) :
    crc32 (s ++ t) = (cksWords t).foldl cksWord (crc32 s) := by
  rw [crc32, cksWords_append t s hs, List.foldl_append, crc32]

theorem crc32_of_short {t : List Byte} (ht : t.length ≤ 3) : crc32 t = Config.crcInit := by
  rw [crc32, cksWords_of_short ht, List.foldl_nil]

/-- Settles O33: at most three bytes hold no word, so there is nothing to go on with after `s`, and
nothing to start with. -/
theorem trailingBytesAreNotRead : Obligations.TrailingBytesAreNotRead := by
  refine ⟨fun s t hs ht => ?after, fun t ht => crc32_of_short ht⟩
  case after =>
    rw [crc32_append hs, cksWords_of_short ht, List.foldl_nil]

/-- Settles O32: CRC does nothing but answer, and an answer writes `results` alone. -/
theorem crcCommandReturnsTheChecksum : Obligations.CrcCommandReturnsTheChecksum := fun s d =>
  (exec_crc_next d s _).mpr rfl

end Sys2Proof.Machine
end

section
/-! The whole conversion (42_converter.md R159): what it gives, by the length of its argument. -/

namespace Sys2Proof.Machine

theorem cnv_of_length {p : List Byte} (hp : p.length = 14) (ts : Time) :
    cnv p ts = some (convert p ts) :=
  (cnv_eq_some p ts _).mpr ⟨hp, rfl⟩

@[simp] theorem cnv_eq_none (p : List Byte) (ts : Time) : cnv p ts = none ↔ p.length ≠ 14 := by
  simp [cnv]

/-- Settles O38: by the length. The Sample of 14 bytes is `convert`'s, each field of which is by
definition R159's, under the names the model gives to R142 to R154. -/
theorem conversionIsTheReferenceFunction : Obligations.ConversionIsTheReferenceFunction := by
  intro p ts
  refine ⟨fun hp => ⟨convert p ts, cnv_of_length hp ts, ?fields⟩, fun hp => (cnv_eq_none p ts).mpr hp⟩
  case fields => exact ⟨rfl, rfl, rfl, rfl, rfl, rfl, rfl, rfl⟩

end Sys2Proof.Machine
end

section
/-! The refusal of TERR, and its two outcomes together (43_synchronizer.md R186). -/

namespace Sys2Proof.Machine

/-- TERR is refused exactly where no read takes place; `exec_terr_next` is the other branch. -/
@[simp] theorem exec_terr_refused (s : State) (r : Refusal) :
    exec .terr s = .refused r ↔ s.readEnabled = false ∧ .notReading = r := by
  simp only [exec, execTerr]
  cases s.readEnabled <;> simp

/-- Settles O9: by whether a read takes place. The state TERR leaves is `raiseTransportError`'s, and
bit 3 of STATUS is `err`. -/
theorem terrEndsTheSession : Obligations.TerrEndsTheSession := by
  refine fun s => ⟨fun hread => ⟨?taken, ?statusBit⟩, fun hno => ?refused⟩
  case taken => exact (exec_terr_next s _).mpr ⟨s.readEnabled_iff.mpr hread, rfl⟩
  case statusBit =>
    rw [State.status_getLsbD]
    exact (State.terr_iff _).mpr rfl
  case refused =>
    have hdisabled : s.readEnabled = false :=
      Bool.eq_false_iff.mpr (mt s.readEnabled_iff.mp hno)
    exact (exec_terr_refused s _).mpr ⟨hdisabled, rfl⟩

end Sys2Proof.Machine
end

section
/-! DRAIN in every state, and the queue flags over the queue it leaves (44_channel.md R205, R206). -/

namespace Sys2Proof.Machine

/-- An empty queue is not full: a capacity is at least 1. -/
theorem State.qfull_of_empty {s : State} (hq : s.q = []) (hc : 1 ≤ s.cfgCap) : s.qfull = false := by
  have hne : s.q.length ≠ s.cfgCap := by
    rw [hq, List.length_nil]
    omega
  exact Bool.eq_false_iff.mpr (mt s.qfull_iff.mp hne)

/-- With nothing queued, DRAIN only answers, with the empty sequence. -/
theorem State.drainAll_of_empty {s : State} (hq : s.q = []) : s.drainAll = s.answer (.samples []) := by
  simp only [State.drainAll, State.answer, hq]

/-- Settles O28: DRAIN is `drainAll` in every state, and bits 5 and 6 of STATUS are the flags of the
queue it leaves, the empty one. -/
theorem drainReturnsAndEmptiesTheBacklog : Obligations.DrainReturnsAndEmptiesTheBacklog := by
  refine fun s => ⟨?drains, fun hq => ?empty, ?qempty, fun hc => ?qfull⟩
  case drains => exact (exec_drain_next s _).mpr rfl
  case empty => exact (exec_drain_next s _).mpr (State.drainAll_of_empty hq)
  case qempty =>
    rw [State.status_getLsbD]
    exact (State.qempty_iff _).mpr rfl
  case qfull =>
    rw [State.status_getLsbD]
    exact State.qfull_of_empty (s := s.drainAll) rfl hc

end Sys2Proof.Machine
end

section
/-! The session interface (45_session.md R220, R221, R222, R224): the refusal of START, the STATUS bits a
session opens with, and where OBSERVE_STOP is the PRODUCER's next step. -/

namespace Sys2Proof.Machine

/-- Settles O2: RESET is `resetRegisters`, an update of the five registers; the registers it leaves are
at their reset values, which gives STATUS. -/
theorem resetClearsRegistersAndKeepsTheRest : Obligations.ResetClearsRegistersAndKeepsTheRest :=
  fun s => ⟨(exec_reset_next s _).mpr rfl, fun hc =>
    State.status_of_registers_reset (s := s.resetRegisters) rfl rfl rfl rfl rfl hc⟩

/-- START is refused exactly in RUN; `exec_start_next` is the other branch. -/
@[simp] theorem exec_start_refused (s : State) (r : Refusal) :
    exec .start s = .refused r ↔ s.pstate = .run ∧ .alreadyRunning = r := by
  simp only [exec, execStart]
  split <;> simp [*]

/-- A session opens with PSTATE RUN and, of STOP, TERR and QUIESCENT, only QUIESCENT set. -/
theorem State.openSession_status_low (s : State) :
    s.openSession.status.extractLsb' 0 5 = 0b10001#5 := by
  apply BitVec.eq_of_getLsbD_eq
  intro i hi
  match i with
  | 0 | 1 | 2 | 3 | 4 => simp [PState.code, State.terr, State.quiescent]

/-- Settles O4: by whether a session runs. The state START leaves is `openSession`'s. -/
theorem startOpensASessionOutsideRun : Obligations.StartOpensASessionOutsideRun := by
  refine fun s => ⟨fun hout => ⟨?opens, s.openSession_status_low⟩, fun hrun => ?refused⟩
  case opens =>
    have hnot : s.pstate ≠ .run := by
      rcases hout with hidle | hhalted
      · simp [hidle]
      · simp [hhalted]
    exact (exec_start_next s _).mpr ⟨hnot, rfl⟩
  case refused => exact (exec_start_refused s _).mpr ⟨hrun, rfl⟩

/-- SYNC_STEP comes first in `autonomous`, but needs 24 bytes where OBSERVE_STOP needs fewer: it never
stands in the way of an enabled OBSERVE_STOP. -/
theorem State.autonomous_of_stopEnabled {s : State} (h : s.stopEnabled = true) :
    s.autonomous = some .observeStop := by
  have hsync : ¬ s.syncEnabled = true := by
    rw [State.stopEnabled_iff] at h
    rw [State.syncEnabled_iff]
    omega
  rw [State.autonomous, if_neg hsync, if_pos h]

/-- Settles O5: STOP writes the flag in every state, so also where it is set already; bit 2 of STATUS is
the flag, and in RUN without a window the flag is what OBSERVE_STOP waits for. -/
theorem stopSetsOnlyTheFlag : Obligations.StopSetsOnlyTheFlag := by
  refine fun s => ⟨?first, ?second, ?statusBit, fun hrun hquiescent => ?next⟩
  case first => exact (exec_stop_next s _).mpr rfl
  case second => exact (exec_stop_next _ _).mpr rfl
  case statusBit => rw [State.status_getLsbD, State.statusBit]
  case next =>
    exact State.autonomous_of_stopEnabled ((State.stopEnabled_iff _).mpr ⟨hrun, rfl, hquiescent⟩)

/-- Settles O6: RDSTAT does nothing but answer, and an answer writes `results` alone. -/
theorem rdstatReturnsStatusAndLengths : Obligations.RdstatReturnsStatusAndLengths := fun s =>
  (exec_rdstat_next s _).mpr rfl

end Sys2Proof.Machine
end

section
/-! Construction and the configuration it fixes (70_reset_and_hazards.md R271, R272). -/

namespace Sys2Proof.Machine

/-! ### Construction -/

@[simp] theorem construct_next (cap : Nat) (policy : Policy) (t : State) :
    construct cap policy = .next t ↔ 1 ≤ cap ∧ State.powerOn cap policy = t := by
  unfold construct
  split <;> simp <;> omega

@[simp] theorem construct_refused (cap : Nat) (policy : Policy) (r : Refusal) :
    construct cap policy = .refused r ↔ cap = 0 ∧ .capInvalid = r := by
  unfold construct
  split <;> simp <;> omega

/-- Settles O3: the two branches of construction, each with the capacities that take it. -/
theorem constructionNeedsACapacity : Obligations.ConstructionNeedsACapacity :=
  ⟨fun policy => (construct_refused 0 policy _).mpr ⟨rfl, rfl⟩,
    fun cap policy hc => (construct_next cap policy _).mpr ⟨hc, rfl⟩⟩

/-! ### The configuration -/

/-- The second state has the configuration of the first. -/
def State.SameConfig (s t : State) : Prop := t.cfgCap = s.cfgCap ∧ t.cfgPolicy = s.cfgPolicy

theorem State.SameConfig.trans {s t u : State} (h : s.SameConfig t) (h' : t.SameConfig u) :
    s.SameConfig u := by
  obtain ⟨hcap, hpolicy⟩ := h
  obtain ⟨hcap', hpolicy'⟩ := h'
  exact ⟨hcap'.trans hcap, hpolicy'.trans hpolicy⟩

/-- The port and the turns are not configuration. -/
theorem State.SameCore.sameConfig {s t : State} (h : s.SameCore t) : s.SameConfig t := by
  rw [h]
  exact ⟨rfl, rfl⟩

theorem State.sameConfig_pushSample (m : Sample) (s : State) : s.SameConfig (s.pushSample m) :=
  ⟨s.pushSample_cfgCap m, s.pushSample_cfgPolicy m⟩

theorem exec_syncStep_sameConfig {s t : State} (h : exec .syncStep s = .next t) : s.SameConfig t := by
  rw [exec_syncStep_frame h]
  exact ⟨rfl, rfl⟩

/-- No instruction writes the configuration, RESET included: PUSH and SYNC_STEP by their frames, and
every other one names the fields it updates. -/
theorem exec_sameConfig {i : Instr} {s t : State} (h : exec i s = .next t) : s.SameConfig t := by
  rcases exec_cases h with ⟨-, rfl⟩ | ⟨-, -, rfl⟩ | ⟨-, rfl⟩ | ⟨c, -, ⟨-, rfl⟩ | ⟨-, rfl⟩⟩ |
    ⟨-, -, rfl⟩ | ⟨-, rfl⟩ | ⟨-, rfl⟩ | ⟨d, -, rfl⟩ | ⟨p, -, -, rfl⟩ | ⟨-, -, rfl⟩ |
    ⟨-, m, -, -, rfl⟩ | ⟨-, hsync⟩
  -- past the updates by name: PUSH, then SYNC_STEP with its windows
  rotate_left 11
  · exact s.unstage.sameConfig_pushSample m
  · exact exec_syncStep_sameConfig hsync
  all_goals exact ⟨rfl, rfl⟩

/-- The fetch before an instruction, and a turn that passes, move the port and the turns only. -/
theorem step_sameConfig {s t : State} (h : step s = .next t) : s.SameConfig t := by
  rcases step_cases h with ⟨i, s', -, hfetch, hexec⟩ | ⟨-, hpass⟩
  · exact hfetch.sameConfig.trans (exec_sameConfig hexec)
  · exact hpass.sameConfig

/-- Settles O51: power-on has the parameters it is given, and no instruction of a step writes them;
RESET is one of the instructions. -/
theorem configurationIsNeverWritten : Obligations.ConfigurationIsNeverWritten := by
  refine ⟨fun cap policy t h => ?construction, fun _ _ => step_sameConfig, fun _ _ => exec_sameConfig⟩
  case construction =>
    obtain ⟨-, rfl⟩ := (construct_next cap policy t).mp h
    exact ⟨rfl, rfl⟩

end Sys2Proof.Machine
end

section
/-! Encoder and decoder of the three spaces, format by format (30_encoding.md R88, R90 to R93). -/

namespace Sys2Proof

open Sys2Proof.Machine

/-! ### What each format encodes -/

theorem Opcode.encode_toInstr_n {o : Opcode} (h : o.format = .n) :
    encode (o.toInstr []) = [o.code] := by
  cases o <;> cases h <;> rfl

theorem Opcode.encode_toInstr_l {o : Opcode} (h : o.format = .l) (data : List Byte) :
    encode (o.toInstr data) = o.code :: lengthPrefixed data := by
  cases o <;> cases h <;> rfl

theorem Opcode.encode_toInstr_p {o : Opcode} (h : o.format = .p) (p : List Byte) :
    encode (o.toInstr p) = o.code :: p := by
  cases o <;> cases h
  rfl

theorem Opcode.toInstr_space (o : Opcode) (operands : List Byte) :
    (o.toInstr operands).space = .port := by
  cases o <;> rfl

/-- The operand bytes a format admits (30_encoding.md R90). -/
def Format.admits (operands : List Byte) : Format → Prop
  | .n => operands = []
  | .l => operands.length ≤ 65535
  | .p => operands.length = 14

/-- The well-formed commands are the opcodes with operand bytes their format admits. -/
theorem wellFormed_port_iff (i : Instr) :
    i.space = .port ∧ i.wellFormed = true ↔
      ∃ (o : Opcode) (operands : List Byte), i = o.toInstr operands ∧ o.format.admits operands := by
  constructor
  · rintro ⟨hs, hw⟩
    cases i with
    | reset => exact ⟨.reset, [], rfl, rfl⟩
    | start => exact ⟨.start, [], rfl, rfl⟩
    | stop => exact ⟨.stop, [], rfl, rfl⟩
    | feed c =>
      exact ⟨.feed, c, rfl, by simpa [Instr.wellFormed, Opcode.format, Format.admits] using hw⟩
    | terr => exact ⟨.terr, [], rfl, rfl⟩
    | drain => exact ⟨.drain, [], rfl, rfl⟩
    | rdstat => exact ⟨.rdstat, [], rfl, rfl⟩
    | crc d =>
      exact ⟨.crc, d, rfl, by simpa [Instr.wellFormed, Opcode.format, Format.admits] using hw⟩
    | conv p =>
      exact ⟨.conv, p, rfl, by simpa [Instr.wellFormed, Opcode.format, Format.admits] using hw⟩
    | _ => cases hs
  · rintro ⟨o, operands, rfl, hadm⟩
    refine ⟨o.toInstr_space operands, ?_⟩
    cases o <;> simp_all [Opcode.format, Format.admits, Opcode.toInstr, Instr.wellFormed]

/-! ### What the decoder reads of each format -/

theorem decodeCommand_n {o : Opcode} (h : o.format = .n) (rest : List Byte) :
    decodeCommand (o.code :: rest) = .ok (o.toInstr [], rest) := by
  simp [decodeCommand, Opcode.opcodeOf_code, h]

theorem decodeCommand_l {o : Opcode} (h : o.format = .l) {data : List Byte}
    (hd : data.length ≤ 65535) (rest : List Byte) :
    decodeCommand (o.code :: (lengthPrefixed data ++ rest)) = .ok (o.toInstr data, rest) := by
  simp [decodeCommand, Opcode.opcodeOf_code, h, lengthPrefixed, bytes16, le16_bytes_toNat hd]

theorem decodeCommand_p {o : Opcode} (h : o.format = .p) {p : List Byte} (hp : p.length = 14)
    (rest : List Byte) : decodeCommand (o.code :: (p ++ rest)) = .ok (o.toInstr p, rest) := by
  simp [decodeCommand, Opcode.opcodeOf_code, h, hp]

/-- A command decodes to itself and leaves what follows it. -/
theorem decodeCommand_encode {i : Instr} (hs : i.space = .port) (hw : i.wellFormed = true)
    (rest : List Byte) : decodeCommand (encode i ++ rest) = .ok (i, rest) := by
  obtain ⟨o, operands, rfl, hadm⟩ := (wellFormed_port_iff i).mp ⟨hs, hw⟩
  cases hf : o.format with
  | n =>
    obtain rfl : operands = [] := by simpa [hf, Format.admits] using hadm
    rw [o.encode_toInstr_n hf]
    exact decodeCommand_n hf rest
  | l =>
    rw [o.encode_toInstr_l hf]
    exact decodeCommand_l hf (by simpa [hf, Format.admits] using hadm) rest
  | p =>
    rw [o.encode_toInstr_p hf]
    exact decodeCommand_p hf (by simpa [hf, Format.admits] using hadm) rest

/-- The window at the front of a stream is classified whatever follows it. -/
theorem decodeWindow_append {c : WindowClass} {w : List Byte} (h : windowOf c w = true)
    (rest : List Byte) : decodeWindow (w ++ rest) = some (c.toInstr w) := by
  have hlen : w.length = 24 := Laws.EncodedLength.window_length h
  have hclass : classify w = c := by
    simp only [windowOf, Bool.and_eq_true, beq_iff_eq] at h
    exact h.2
  have htake : (w ++ rest).take 24 = w := by rw [← hlen, List.take_left']; rfl
  simp only [decodeWindow, htake, hclass]
  rw [if_neg (by simp [hlen])]

theorem decode_window {c : WindowClass} {w : List Byte} (h : windowOf c w = true)
    (rest : List Byte) : decode .wire (w ++ rest) = .ok (c.toInstr w) := by
  rw [decode, decodeWindow_append h]

/-- Settles O42, by the space of the instruction: a command by its format, a trace code by the
table, a window by its class. -/
theorem decodeOfEncodeIsTheInstruction : Obligations.DecodeOfEncodeIsTheInstruction := by
  intro i rest hw
  have hport (hs : i.space = .port) := decodeCommand_encode hs hw rest
  refine ⟨?_, hport⟩
  cases i with
  | syncStep => rfl
  | observeStop => rfl
  | push => rfl
  | accept w => exact decode_window (c := .accept) hw rest
  | crcReject w => exact decode_window (c := .crcReject) hw rest
  | typeReject w => exact decode_window (c := .typeReject) hw rest
  | skip w => exact decode_window (c := .skip) hw rest
  | _ =>
    rw [Instr.space, decode, hport rfl]
    rfl

/-! ### The bytes a decoded command came from -/

/-- A length field followed by that many bytes is their format L operand field. -/
theorem lengthPrefixed_take {lo hi : Byte} {data : List Byte}
    (h : (le16 lo hi).toNat ≤ data.length) :
    lengthPrefixed (data.take (le16 lo hi).toNat) = lo :: hi :: data.take (le16 lo hi).toNat := by
  rw [lengthPrefixed, List.length_take, Nat.min_eq_left h, BitVec.ofNat_toNat, BitVec.setWidth_eq,
    bytes16_le16]
  rfl

/-- What the decoder can read: an opcode with operand bytes its format admits, encoded at the front.
-/
theorem decodeCommand_cases {bs : List Byte} {i : Instr} {rest : List Byte}
    (h : decodeCommand bs = .ok (i, rest)) :
    ∃ (o : Opcode) (operands : List Byte), i = o.toInstr operands ∧ o.format.admits operands ∧
      bs = encode (o.toInstr operands) ++ rest := by
  unfold decodeCommand at h
  split at h
  case h_1 => cases h
  case h_2 op bs =>
    split at h
    case h_1 => cases h
    case h_2 o ho =>
      obtain rfl := Opcode.code_of_opcodeOf ho
      split at h
      case h_1 hf =>
        cases h
        exact ⟨o, [], rfl, by rw [hf]; rfl, by rw [o.encode_toInstr_n hf]; rfl⟩
      case h_2 hf =>
        split at h
        case h_2 => cases h
        case h_1 lo hi data =>
          split at h
          case isTrue => cases h
          case isFalse hlen =>
            cases h
            have hle : (le16 lo hi).toNat ≤ data.length := by omega
            refine ⟨o, data.take (le16 lo hi).toNat, rfl, ?_, ?_⟩
            · have := (le16 lo hi).isLt
              simp only [hf, Format.admits, List.length_take]
              omega
            · rw [o.encode_toInstr_l hf, lengthPrefixed_take hle]
              simp
      case h_3 hf =>
        split at h
        case isTrue => cases h
        case isFalse hlen =>
          cases h
          refine ⟨o, bs.take 14, rfl, ?_, ?_⟩
          · simp only [Config.payloadLen] at hlen
            simp only [hf, Format.admits, List.length_take]
            omega
          · rw [o.encode_toInstr_p hf]
            simp

/-- The first three bytes of an encoding give its length, whatever follows (30_encoding.md R93). -/
theorem commandLength_encode {o : Opcode} {operands : List Byte} (h : o.format.admits operands)
    (rest : List Byte) :
    commandLength (encode (o.toInstr operands) ++ rest)
      = some (encode (o.toInstr operands)).length := by
  cases hf : o.format with
  | n =>
    obtain rfl : operands = [] := by simpa [hf, Format.admits] using h
    simp [commandLength, o.encode_toInstr_n hf, byteAt, Opcode.opcodeOf_code, hf]
  | l =>
    have hlen : operands.length ≤ 65535 := by simpa [hf, Format.admits] using h
    simp only [commandLength, o.encode_toInstr_l hf, lengthPrefixed, bytes16, byteAt,
      List.cons_append, List.getD_cons_zero, List.getD_cons_succ, Opcode.opcodeOf_code, hf,
      le16_bytes_toNat hlen, List.length_cons, List.nil_append]
    rw [Nat.add_comm 3]
  | p =>
    have hlen : operands.length = 14 := by simpa [hf, Format.admits] using h
    simp [commandLength, o.encode_toInstr_p hf, byteAt, Opcode.opcodeOf_code, hf, hlen]

/-- Settles O43: the decoder reads an opcode with operands its format admits, which is a well-formed
command, off the front of the bytes. -/
theorem decodedBytesAreTheEncoding : Obligations.DecodedBytesAreTheEncoding := by
  intro bs i rest h
  obtain ⟨o, operands, rfl, hadm, rfl⟩ := decodeCommand_cases h
  obtain ⟨hs, hw⟩ := (wellFormed_port_iff _).mpr ⟨o, operands, rfl, hadm⟩
  exact ⟨rfl, hw, hs, commandLength_encode hadm rest⟩

/-- Settles O47: each sequence evaluated by the decoder of its space. -/
theorem specExamplesDecode : Obligations.SpecExamplesDecode :=
  ⟨rfl, rfl, rfl, rfl, rfl, rfl, rfl⟩

end Sys2Proof
end

section
/-! The invariant of the state between steps: what keeps it, instruction by instruction. -/

namespace Sys2Proof.Machine

/-! ### Samples -/

@[simp] theorem whenValid_isSome (vb : Byte) (bit : Nat) (value : Binary64) :
    (whenValid vb bit value).isSome = vb.getLsbD bit := by
  unfold whenValid
  split <;> simp_all

/-- A converted Sample has a value exactly where its mask says so (10_state.md R31). -/
theorem convert_coherent (p : List Byte) (ts : Time) : (convert p ts).Coherent := by
  simp [Sample.Coherent, convert, vmaskOf]

/-! ### The invariant -/

/-- In RUN the clauses about halted and idle sessions say only that no error is recorded. -/
theorem State.inv_iff_of_run {s : State} (hp : s.pstate = .run) :
    s.Inv ↔ 1 ≤ s.cfgCap ∧ s.q.length ≤ s.cfgCap ∧ s.inflight = none ∧
      (∀ m ∈ s.q, m.Coherent) ∧ s.err ≠ .transport := by
  simp [State.Inv, hp]

/-- In HALTED the clauses about idle sessions and about errors say nothing. -/
theorem State.inv_iff_of_halted {s : State} (hp : s.pstate = .halted) :
    s.Inv ↔ 1 ≤ s.cfgCap ∧ s.q.length ≤ s.cfgCap ∧ s.buf.length < 24 ∧ s.inflight = none ∧
      ∀ m ∈ s.q, m.Coherent := by
  simp [State.Inv, hp]

/-- The invariant does not speak of the port and the turns. -/
theorem State.SameCore.inv {s t : State} (h : s.SameCore t) (hi : s.Inv) : t.Inv := by
  rw [h]
  exact hi

/-- A PUSH of a coherent Sample keeps what the invariant says of the queue. -/
theorem State.pushSample_inv {m : Sample} {s : State} (hp : s.pstate = .run) (hm : m.Coherent)
    (hi : s.Inv) : (s.pushSample m).Inv := by
  obtain ⟨hcap, hlen, hfl, hq, herr⟩ := (State.inv_iff_of_run hp).mp hi
  refine (State.inv_iff_of_run (by simpa using hp)).mpr
    ⟨by simpa using hcap, ?_, by simpa using hfl, fun x hx => ?_, by simpa using herr⟩
  · rw [State.pushSample_cfgCap]
    exact State.pushSample_length_le hcap hlen
  · rcases State.mem_pushSample hx with hx | rfl
    · exact hq x hx
    · exact hm

theorem exec_syncStep_inv {s t : State} (hi : s.Inv) (h : exec .syncStep s = .next t) : t.Inv := by
  obtain ⟨⟨hp, -⟩, hcase⟩ := exec_syncStep_cases h
  obtain ⟨hcap, hlen, hfl, hq, herr⟩ := (State.inv_iff_of_run hp).mp hi
  rcases hcase with ⟨-, rfl⟩ | ⟨-, rfl⟩ | ⟨-, rfl⟩ | ⟨-, -, rfl⟩
  case inr.inr.inr =>
    exact State.pushSample_inv hp (convert_coherent _ _)
      ((State.inv_iff_of_run (by exact hp)).mpr ⟨hcap, hlen, rfl, hq, herr⟩)
  all_goals exact (State.inv_iff_of_run (by exact hp)).mpr ⟨hcap, hlen, hfl, hq, herr⟩

/-- Every instruction keeps the invariant. Those that write nothing it speaks of are closed by it.
-/
theorem exec_inv {i : Instr} {s t : State} (hi : s.Inv) (h : exec i s = .next t) : t.Inv := by
  obtain ⟨hcap, hlen, hbuf, hfl, hq, herr, hidle⟩ := id hi
  rcases exec_cases h with ⟨-, rfl⟩ | ⟨-, -, rfl⟩ | ⟨-, rfl⟩ | ⟨c, -, ⟨hr, rfl⟩ | ⟨-, rfl⟩⟩ |
    ⟨-, hr, rfl⟩ | ⟨-, rfl⟩ | ⟨-, rfl⟩ | ⟨d, -, rfl⟩ | ⟨p, -, -, rfl⟩ | ⟨-, hr, rfl⟩ |
    ⟨-, m, hm, -, -⟩ | ⟨-, hsync⟩
  · -- RESET
    simp [State.Inv, hcap, hfl]
  · -- START
    exact (State.inv_iff_of_run rfl).mpr ⟨hcap, hlen, hfl, hq, by simp⟩
  · exact hi
  · -- FEED
    obtain ⟨hp, -⟩ := s.readEnabled_iff.mp hr
    exact (State.inv_iff_of_run (by exact hp)).mpr ((State.inv_iff_of_run hp).mp hi)
  · exact hi
  · -- TERR
    obtain ⟨-, -, hshort⟩ := s.readEnabled_iff.mp hr
    exact (State.inv_iff_of_halted rfl).mpr ⟨hcap, hlen, hshort, hfl, hq⟩
  · -- DRAIN
    exact ⟨hcap, by simp, hbuf, hfl, by simp, herr, fun hp => ⟨(hidle hp).1, rfl⟩⟩
  · exact hi
  · exact hi
  · exact hi
  · -- OBSERVE_STOP
    obtain ⟨-, -, hshort⟩ := s.stopEnabled_iff.mp hr
    exact (State.inv_iff_of_halted rfl).mpr ⟨hcap, hlen, hshort, hfl, hq⟩
  · -- PUSH: there is no Sample in flight
    rw [hfl] at hm
    cases hm
  · exact exec_syncStep_inv hi hsync

/-- Settles O49: a step runs an instruction, or lets a turn pass, in a state that differs in port
and turns only; neither the fetch nor the instruction breaks the invariant. -/
theorem everyStepKeepsTheInvariant : Obligations.EveryStepKeepsTheInvariant := by
  intro s t hi h
  rcases step_cases h with ⟨i, s', -, hcore, hexec⟩ | ⟨-, hcore⟩
  · exact exec_inv (hcore.inv hi) hexec
  · exact hcore.inv hi

/-- Settles O50: a capacity is one more than a number, and every other clause is about empty or
absent values. -/
theorem resetHasTheInvariant : Obligations.ResetHasTheInvariant := by
  have hcap : 1 ≤ Config.cap := Nat.le_add_left 1 Config.capAboveOne
  simp [Obligations.ResetHasTheInvariant, State.Inv, hcap, State.reset, State.powerOn]

end Sys2Proof.Machine
end

section
/-! What every instruction can do to `buf`, to `err` and the log's transport errors, and to HALTED
(10_state.md R27, 60_exceptions.md R246, R252). -/

namespace Sys2Proof.Machine

/-! ### SYNC_STEP -/

/-- A SYNC_STEP takes one byte or a window off the front of `buf`. -/
theorem exec_syncStep_buf {s t : State} (h : exec .syncStep s = .next t) :
    24 ≤ s.buf.length ∧ (t.buf = s.buf.drop 1 ∨ t.buf = s.buf.drop 24) := by
  obtain ⟨⟨-, hlen⟩, ⟨-, rfl⟩ | ⟨-, rfl⟩ | ⟨-, rfl⟩ | ⟨-, -, rfl⟩⟩ := exec_syncStep_cases h
  · exact ⟨hlen, .inl rfl⟩
  · exact ⟨hlen, .inr rfl⟩
  · exact ⟨hlen, .inr rfl⟩
  · exact ⟨hlen, .inr (State.pushSample_buf _ _)⟩

theorem exec_syncStep_pstate {s t : State} (h : exec .syncStep s = .next t) : t.pstate = .run := by
  obtain ⟨⟨hp, -⟩, -⟩ := exec_syncStep_cases h
  rw [exec_syncStep_frame h]
  exact hp

theorem exec_syncStep_err {s t : State} (h : exec .syncStep s = .next t) : t.err = s.err := by
  rw [exec_syncStep_frame h]

/-- The events of losses are no transport errors. -/
theorem State.pushSample_count_transportError (m : Sample) (s : State) :
    (s.pushSample m).evlog.count .transportError = s.evlog.count .transportError := by
  rcases State.pushSample_cases m s with
    ⟨-, e⟩ | ⟨-, -, d, rest, -, e⟩ | ⟨-, -, e⟩ | ⟨-, -, e⟩ <;> simp [e, List.count_append]

theorem exec_syncStep_count_transportError {s t : State} (h : exec .syncStep s = .next t) :
    t.evlog.count .transportError = s.evlog.count .transportError := by
  obtain ⟨-, ⟨-, rfl⟩ | ⟨-, rfl⟩ | ⟨-, rfl⟩ | ⟨-, -, rfl⟩⟩ := exec_syncStep_cases h
  case inr.inr.inr =>
    rw [State.pushSample_count_transportError]
    simp [State.accepting, List.count_append]
  all_goals simp [List.count_append]

theorem isSyncInstr_issuer {i : Instr} (h : isSyncInstr i = true) : i.issuer = .producer := by
  obtain rfl | ⟨c, w, rfl⟩ := isSyncInstr_cases h
  · rfl
  · cases c <;> rfl

/-! ### Every instruction -/

/-- Settles O54: the instructions one by one; SYNC_STEP and its windows drop, FEED appends, START
and RESET empty, and no other one writes `buf`. -/
theorem theBufferChangesOnlyAsItsRulesSay : Obligations.TheBufferChangesOnlyAsItsRulesSay := by
  intro i s t h
  rcases exec_cases h with ⟨rfl, rfl⟩ | ⟨rfl, -, rfl⟩ | ⟨-, rfl⟩ | ⟨c, rfl, ⟨-, rfl⟩ | ⟨-, rfl⟩⟩ |
    ⟨-, -, rfl⟩ | ⟨-, rfl⟩ | ⟨-, rfl⟩ | ⟨d, -, rfl⟩ | ⟨p, -, -, rfl⟩ | ⟨-, -, rfl⟩ |
    ⟨-, m, -, -, rfl⟩ | ⟨hi, hsync⟩
  · exact .inr (.inr (.inr ⟨.inr rfl, rfl⟩))
  · exact .inr (.inr (.inr ⟨.inl rfl, rfl⟩))
  · exact .inl rfl
  · exact .inr (.inl ⟨c, rfl, rfl⟩)
  rotate_left 7
  · exact .inl (State.pushSample_buf m s.unstage)
  · exact .inr (.inr (.inl ⟨isSyncInstr_issuer hi, exec_syncStep_buf hsync⟩))
  all_goals exact .inl rfl

/-- Settles O55: TERR is `raiseTransportError`; no other instruction sets `err` to TRANSPORT or
appends a transport error. -/
theorem onlyTerrRaisesTheTransportError : Obligations.OnlyTerrRaisesTheTransportError := by
  intro i s t h
  rcases exec_cases h with ⟨rfl, rfl⟩ | ⟨rfl, -, rfl⟩ | ⟨rfl, rfl⟩ | ⟨c, rfl, ⟨-, rfl⟩ | ⟨-, rfl⟩⟩ |
    ⟨rfl, -, rfl⟩ | ⟨rfl, rfl⟩ | ⟨rfl, rfl⟩ | ⟨d, rfl, rfl⟩ | ⟨p, rfl, -, rfl⟩ | ⟨rfl, -, rfl⟩ |
    ⟨rfl, m, -, -, rfl⟩ | ⟨hi, hsync⟩
  rotate_left 11
  · -- PUSH
    simp [State.pushSample_count_transportError]
  · -- SYNC_STEP and its windows
    refine ⟨fun ht hs => absurd ((exec_syncStep_err hsync).symm.trans ht) hs,
      fun hne => absurd (exec_syncStep_count_transportError hsync) hne, ?_⟩
    rintro rfl
    cases hi
  all_goals simp +contextual [List.count_append]

/-- Settles O56: only START and RESET write `pstate` in HALTED; a SYNC_STEP, a read and OBSERVE_STOP
need RUN. -/
theorem haltedIsLeftOnlyByStartOrReset : Obligations.HaltedIsLeftOnlyByStartOrReset := by
  intro i s t hs h hne
  have hrun : s.pstate ≠ .run := by simp [hs]
  rcases exec_cases h with ⟨rfl, rfl⟩ | ⟨rfl, -, rfl⟩ | ⟨-, rfl⟩ | ⟨c, -, ⟨hr, -⟩ | ⟨-, rfl⟩⟩ |
    ⟨-, hr, -⟩ | ⟨-, rfl⟩ | ⟨-, rfl⟩ | ⟨d, -, rfl⟩ | ⟨p, -, -, rfl⟩ | ⟨-, hr, -⟩ |
    ⟨-, m, -, -, rfl⟩ | ⟨-, hsync⟩
  · exact .inr ⟨rfl, rfl⟩
  · exact .inl ⟨rfl, rfl, rfl, rfl, rfl⟩
  · exact absurd hs hne
  · exact absurd (s.readEnabled_iff.mp hr).1 hrun
  · exact absurd hs hne
  · exact absurd (s.readEnabled_iff.mp hr).1 hrun
  · exact absurd hs hne
  · exact absurd hs hne
  · exact absurd hs hne
  · exact absurd hs hne
  · exact absurd (s.stopEnabled_iff.mp hr).1 hrun
  · exact absurd ((State.pushSample_pstate m s.unstage).trans hs) hne
  · exact absurd (exec_syncStep_cases hsync).1.1 hrun

end Sys2Proof.Machine
end

section
/-! The window at the front of `buf` and the step it gives (30_encoding.md R88, 43_synchronizer.md
R172 to R177), SYNC_STEP and window instruction at once. -/

namespace Sys2Proof.Machine

/-! ### The window instruction -/

theorem WindowClass.toInstr_inj {c c' : WindowClass} {w w' : List Byte} :
    c.toInstr w = c'.toInstr w' ↔ c = c' ∧ w = w' := by
  cases c <;> cases c' <;> simp [WindowClass.toInstr]

theorem decodeWindow_eq_none_iff (bs : List Byte) : decodeWindow bs = none ↔ bs.length < 24 := by
  simp [decodeWindow]

theorem decodeWindow_eq_some_iff (bs : List Byte) (i : Instr) :
    decodeWindow bs = some i ↔
      24 ≤ bs.length ∧ (classify (bs.take 24)).toInstr (bs.take 24) = i := by
  simp [decodeWindow]

/-- In RUN a window instruction is the one decoded from `buf` exactly where its step exists. -/
theorem State.atWindow_iff_decodeWindow {s : State} (hp : s.pstate = .run) (c : WindowClass)
    (w : List Byte) : s.atWindow c w = true ↔ decodeWindow s.buf = some (c.toInstr w) := by
  rw [State.atWindow_iff, decodeWindow_eq_some_iff, WindowClass.toInstr_inj]
  constructor
  · rintro ⟨⟨-, hlen⟩, rfl, rfl⟩
    exact ⟨hlen, rfl, rfl⟩
  · rintro ⟨hlen, rfl, rfl⟩
    exact ⟨⟨hp, hlen⟩, rfl, rfl⟩

/-- A window instruction has no step where its window does not stand. -/
theorem exec_toInstr_noStep {c : WindowClass} {w : List Byte} {s : State}
    (h : ¬ s.atWindow c w = true) : exec (c.toInstr w) s = .fault .noStep := by
  cases c <;>
    simp only [WindowClass.toInstr, exec, execAccept, execCrcReject, execTypeReject, execSkip,
      if_neg h]

theorem exec_syncStep_noStep {s : State} (h : ¬ s.syncEnabled = true) :
    exec .syncStep s = .fault .noStep := if_neg h

/-- Settles O16: the instruction decoded from `buf` is that of its front window, whose step is
SYNC_STEP's; any other one does not stand at the front. -/
theorem syncStepRunsTheWindowInstruction : Obligations.SyncStepRunsTheWindowInstruction := by
  intro s hp
  have other (c : WindowClass) (w : List Byte) (h : decodeWindow s.buf ≠ some (c.toInstr w)) :
      exec (c.toInstr w) s = .fault .noStep :=
    exec_toInstr_noStep (mt (State.atWindow_iff_decodeWindow hp c w).mp h)
  refine ⟨fun i hi => ?_, fun hnone => ?_, other .accept, other .crcReject, other .typeReject,
    other .skip⟩
  · obtain ⟨-, rfl⟩ := (decodeWindow_eq_some_iff _ _).mp hi
    exact (exec_toInstr_eq_syncStep rfl rfl).symm
  · have hshort := (decodeWindow_eq_none_iff _).mp hnone
    refine exec_syncStep_noStep fun he => ?_
    have hlen := (s.syncEnabled_iff.mp he).2
    omega

/-! ### The four cases -/

/-- What the front window's case answers is what SYNC_STEP and the window's own instruction answer.
-/
theorem exec_front_window {c : WindowClass} {s : State} {o : Outcome} (hp : s.pstate = .run)
    (hlen : 24 ≤ s.buf.length) (hc : classify (s.buf.take 24) = c)
    (ho : runWindow (s.buf.take 24) s = o) :
    exec .syncStep s = o ∧ exec (c.toInstr (s.buf.take 24)) s = o := by
  rw [exec_toInstr_eq_syncStep rfl hc, and_self, exec_syncStep_of_enabled ⟨hp, hlen⟩]
  exact ho

theorem isMarker_take (s : List Byte) :
    isMarker (s.take 24) = true ↔ byteAt s 0 = 0x4E#8 ∧ byteAt s 1 = 0x45#8 := by
  rw [isMarker_iff, byteAt_take (by decide), byteAt_take (by decide)]

theorem msgType_take (s : List Byte) : msgType (s.take 24) = byteAt s 4 := byteAt_take (by decide)

theorem crcField_take (s : List Byte) :
    crcField (s.take 24) = le32 (byteAt s 20) (byteAt s 21) (byteAt s 22) (byteAt s 23) := by
  simp only [crcField, byteAt_take (s := s) (show 20 < 24 by decide),
    byteAt_take (s := s) (show 21 < 24 by decide), byteAt_take (s := s) (show 22 < 24 by decide),
    byteAt_take (s := s) (show 23 < 24 by decide)]

theorem crcSpan_take (s : List Byte) : (s.take 24).take 20 = s.take 20 := by
  rw [List.take_take]
  rfl

theorem seqField_payload (w : List Byte) : seqField (payload w) = byteAt w 5 := by
  simp [seqField, payload, byteAt, List.getD]

theorem seqField_payload_take (s : List Byte) : seqField (payload (s.take 24)) = byteAt s 5 := by
  rw [seqField_payload, byteAt_take (by decide)]

theorem crcOk_take (s : List Byte) : crcOk (s.take 24) = true ↔
    crc32 (s.take 20) = le32 (byteAt s 20) (byteAt s 21) (byteAt s 22) (byteAt s 23) := by
  rw [crcOk, beq_iff_eq, crcField_take, crcSpan_take]

theorem classify_eq_accept_iff (w : List Byte) :
    classify w = .accept ↔
      isMarker w = true ∧ msgType w = Config.supportedType ∧ crcOk w = true := by
  unfold classify
  split_ifs <;> simp_all

/-- Settles O12: the marker check fails, so the window is a SKIP. -/
theorem skipDropsExactlyOneByte : Obligations.SkipDropsExactlyOneByte := by
  intro s hp hlen hne
  have hc : classify (s.buf.take 24) = .skip := by
    refine classify_of_no_marker fun hm => ?_
    obtain ⟨h0, h1⟩ := (isMarker_take _).mp hm
    exact hne.elim (absurd h0) (absurd h1)
  refine exec_front_window hp hlen hc ?_
  rw [runWindow, hc, ← byteAt_take (show 0 < 24 by decide)]
  rfl

/-- Settles O13: with the marker, another type is a TYPE_REJECT. -/
theorem typeRejectDropsTheWindow : Obligations.TypeRejectDropsTheWindow := by
  intro s hp hlen h0 h1 h4
  have hc : classify (s.buf.take 24) = .typeReject :=
    classify_of_other_type ((isMarker_take _).mpr ⟨h0, h1⟩) (by rwa [msgType_take])
  refine exec_front_window hp hlen hc ?_
  rw [runWindow, hc, ← msgType_take]
  rfl

/-- Settles O14: a candidate whose CRC does not match is a CRC_REJECT. -/
theorem crcRejectDropsTheWindow : Obligations.CrcRejectDropsTheWindow := by
  intro s hp hlen h0 h1 h4 hcrc event
  have hc : classify (s.buf.take 24) = .crcReject := by
    rw [classify_of_candidate ((isMarker_take _).mpr ⟨h0, h1⟩) ((msgType_take _).trans h4),
      if_neg (mt (crcOk_take _).mp hcrc)]
  refine exec_front_window hp hlen hc ?_
  simp only [event]
  rw [runWindow, hc, ← crcField_take, ← crcSpan_take]
  rfl

/-- Settles O15: a candidate whose CRC matches is an ACCEPT, which pushes into the state
`State.accepting`. -/
theorem acceptConvertsAndPushes : Obligations.AcceptConvertsAndPushes := by
  intro s hp hlen hcap h0 h1 h4 hcrc m t
  have hc : classify (s.buf.take 24) = .accept :=
    (classify_eq_accept_iff _).mpr
      ⟨(isMarker_take _).mpr ⟨h0, h1⟩, (msgType_take _).trans h4, (crcOk_take _).mpr hcrc⟩
  refine exec_front_window hp hlen hc ?_
  simp only [t, m]
  rw [runWindow, hc, ← seqField_payload_take, ← payload_take]
  exact acceptWindow_eq (by simp [hlen]) hcap

end Sys2Proof.Machine
end

section
/-! PUSH of the Sample in flight (44_channel.md R201 to R203). -/

namespace Sys2Proof.Machine

theorem State.pushSample_of_room {s : State} (m : Sample) (h : s.q.length < s.cfgCap) :
    s.pushSample m = s.enqueue m := if_pos h

theorem State.pushSample_of_full_oldest {s : State} (m : Sample) (h : s.cfgCap ≤ s.q.length)
    (hp : s.cfgPolicy = .dropOldest) : s.pushSample m = s.replaceOldest m := by
  rw [State.pushSample, if_neg (by omega), hp]

theorem State.pushSample_of_full_newest {s : State} (m : Sample) (h : s.cfgCap ≤ s.q.length)
    (hp : s.cfgPolicy = .dropNewest) : s.pushSample m = s.emit (.chDropNewest m.seq) := by
  rw [State.pushSample, if_neg (by omega), hp]

/-- Settles O25: with room a PUSH enqueues; bits 5 and 6 of STATUS are the flags of the longer
queue. -/
theorem pushAppendsWhenThereIsRoom : Obligations.PushAppendsWhenThereIsRoom := by
  intro s m hm hroom
  refine ⟨(exec_push_next s _).mpr ⟨m, hm, by omega, State.pushSample_of_room m hroom⟩, ?_, ?_⟩
  · rw [State.status_getLsbD]
    simp [State.qempty]
  · intro hfull
    rw [State.status_getLsbD]
    exact (State.qfull_iff _).mpr (by simpa using hfull)

/-- Settles O26: with a full queue under DROP_OLDEST a PUSH replaces its head. -/
theorem pushReplacesTheOldestWhenFull : Obligations.PushReplacesTheOldestWhenFull := by
  intro s m d rest hm hq hfull hp
  have hlen : rest.length + 1 = s.cfgCap := by simpa [hq] using hfull
  refine ⟨(exec_push_next s _).mpr ⟨m, hm, by omega, ?_⟩, by simpa using hlen⟩
  rw [State.pushSample_of_full_oldest (s := s.unstage) m (by simp [hfull]) hp]
  exact State.replaceOldest_cons (s := s.unstage) hq

/-- Settles O27: with a full queue under DROP_NEWEST a PUSH only records the loss. -/
theorem pushLosesTheNewestWhenFull : Obligations.PushLosesTheNewestWhenFull := by
  intro s m hm hcap hfull hp
  refine (exec_push_next s _).mpr ⟨m, hm, hcap, ?_⟩
  rw [State.pushSample_of_full_newest (s := s.unstage) m (by simp [hfull]) hp]
  rfl

end Sys2Proof.Machine
end

section
/-! The PRODUCER's reads and stop, and where each of its steps is enabled (43_synchronizer.md R183
to R187). -/

namespace Sys2Proof.Machine

/-! ### FEED -/

/-- FEED is refused exactly where no read takes place and none is held; `exec_feed_next` has the
other branches. -/
theorem exec_feed_refused {c : List Byte} {s : State} (h : s.pstate ≠ .run ∨ s.stop = true) :
    exec (.feed c) s = .refused .notReading := by
  have hread : ¬ s.readEnabled = true := by
    rw [State.readEnabled_iff]
    rintro ⟨hp, hs, -⟩
    simp [hp, hs] at h
  have hheld : ¬ s.feedHeld = true := by
    rw [State.feedHeld_iff]
    rintro ⟨hp, hs, -⟩
    simp [hp, hs] at h
  simp only [exec, execFeed, if_neg hread, if_neg hheld]

/-- On the port's turn a held FEED leaves the step to SYN (43_synchronizer.md R183). -/
theorem step_of_held_feed {s : State} {c rest : List Byte} {more : List Transaction}
    {turns : List Turn} (hheld : s.feedHeld = true) (hfl : s.inflight = none)
    (hsched : s.sched = .port :: turns)
    (hport : s.port = ⟨.host, encode (.feed c) ++ rest⟩ :: more) (hc : c.length ≤ 65535) :
    step s = exec .syncStep s := by
  have hd : decodeCommand (encode (.feed c) ++ rest) = .ok (.feed c, rest) :=
    decodeCommand_encode rfl (by simpa [Instr.wellFormed] using hc) rest
  simp [step, fetch, hfl, hsched, portFetch, hport, hd, Instr.issuer, isHeld, hheld]

/-- Settles O8: by whether a read takes place, one is held, or neither. A held FEED leaves the step
to SYN, whose frame keeps the port. -/
theorem feedAppendsIsHeldOrRefused : Obligations.FeedAppendsIsHeldOrRefused := by
  intro s c
  refine ⟨fun hread => ⟨?taken, ?empty⟩, fun hheld => ⟨?held, ?step⟩, exec_feed_refused⟩
  case taken => exact (exec_feed_next c s _).mpr (.inl ⟨s.readEnabled_iff.mpr hread, rfl⟩)
  case empty =>
    exact (exec_feed_next [] s _).mpr
      (.inl ⟨s.readEnabled_iff.mpr hread, by simp [State.append]⟩)
  case held => exact (exec_feed_next c s _).mpr (.inr ⟨s.feedHeld_iff.mpr hheld, rfl⟩)
  case step =>
    intro rest more turns hfl hsched hport hc
    have hstep := step_of_held_feed (s.feedHeld_iff.mpr hheld) hfl hsched hport hc
    refine ⟨hstep, fun t ht => ?_⟩
    rw [hstep] at ht
    rw [exec_syncStep_frame ht]

/-! ### OBSERVE_STOP -/

theorem exec_observeStop_noStep {s : State} (h : ¬ s.stopEnabled = true) :
    exec .observeStop s = .fault .noStep := if_neg h

/-- Settles O10: by whether OBSERVE_STOP is enabled. -/
theorem observeStopHalts : Obligations.ObserveStopHalts := fun s =>
  ⟨fun h => (exec_observeStop_next s _).mpr ⟨s.stopEnabled_iff.mpr h, rfl⟩,
    fun h => exec_observeStop_noStep (mt s.stopEnabled_iff.mp h)⟩

/-! ### The complete table -/

/-- With a capacity of at least 1 every front window has its step. -/
theorem exec_syncStep_exists {s : State} (hp : s.pstate = .run) (hlen : 24 ≤ s.buf.length)
    (hcap : 1 ≤ s.cfgCap) : ∃ t, exec .syncStep s = .next t := by
  rw [exec_syncStep_of_enabled ⟨hp, hlen⟩]
  cases hc : classify (s.buf.take 24) with
  | accept =>
    rw [runWindow, hc]
    exact ⟨_, acceptWindow_eq (by simp [hlen]) hcap⟩
  | crcReject | typeReject | skip =>
    rw [runWindow, hc]
    exact ⟨_, rfl⟩

theorem exec_syncStep_exists_iff {s : State} (hcap : 1 ≤ s.cfgCap) :
    (∃ t, exec .syncStep s = .next t) ↔ s.pstate = .run ∧ 24 ≤ s.buf.length :=
  ⟨fun ⟨_, h⟩ => (exec_syncStep_cases h).1, fun ⟨hp, hlen⟩ => exec_syncStep_exists hp hlen hcap⟩

/-- A held FEED does not append: only where a read takes place is every chunk appended. -/
theorem exec_feed_appends_iff (s : State) :
    (∀ c, exec (.feed c) s = .next { s with buf := s.buf ++ c }) ↔ s.readEnabled = true := by
  refine ⟨fun h => ?_, fun h c => (exec_feed_next c s _).mpr (.inl ⟨h, rfl⟩)⟩
  rcases (exec_feed_next [0#8] s _).mp (h [0#8]) with ⟨hr, -⟩ | ⟨-, he⟩
  · exact hr
  · have hbuf : s.buf = s.buf ++ [0#8] := congrArg State.buf he
    simp at hbuf

/-- Settles O11: each step by its enabling condition; the invariant gives the capacity for SYNC_STEP
and the last row. -/
theorem producerStepsAreEnabledByTheTable : Obligations.ProducerStepsAreEnabledByTheTable := by
  rintro s ⟨hcap, -, hbuf, -⟩
  refine ⟨exec_syncStep_exists_iff hcap, (exec_feed_appends_iff s).trans s.readEnabled_iff, ?_, ?_,
    hbuf⟩
  · simp
  · simp

end Sys2Proof.Machine
end

section
/-! CONV (42_converter.md R156) and MemRead (00_scope.md R10). -/

namespace Sys2Proof.Machine

/-- CONV is refused exactly for another length than 14; `exec_conv_next` is the other branch. -/
theorem exec_conv_refused {p : List Byte} (h : p.length ≠ 14) (s : State) :
    exec (.conv p) s = .refused .precondition := by
  simp only [exec, execConv, (cnv_eq_none p s.timeNow).mpr h]

/-- Settles O37: by the length of the payload. -/
theorem convReturnsTheSample : Obligations.ConvReturnsTheSample := fun s p =>
  ⟨fun hp => (exec_conv_next p s _).mpr ⟨hp, rfl⟩, fun hp => exec_conv_refused hp s⟩

/-! ### MemRead -/

theorem memRead_of_le {s : List Byte} {i n : Nat} (h : i + n ≤ s.length) :
    memRead s i n = some (leNat ((s.drop i).take n)) := if_pos h

theorem memRead_isSome_iff (s : List Byte) (i n : Nat) :
    (∃ v, memRead s i n = some v) ↔ i + n ≤ s.length := by
  simp [memRead]

/-- The first of some bytes read is the byte at the index read from. -/
theorem take_drop_succ {s : List Byte} {i n : Nat} (h : i < s.length) :
    (s.drop i).take (n + 1) = byteAt s i :: (s.drop (i + 1)).take n := by
  rw [List.drop_eq_getElem_cons h, List.take_succ_cons, byteAt, List.getD_eq_getElem _ _ h]

/-- Bits that do not overlap are added by OR. -/
theorem or_shiftLeft_toNat {x y : Word32} {k : Nat} (hx : x.toNat < 2 ^ k)
    (hy : y.toNat * 2 ^ k < 2 ^ 32) : (x ||| y <<< k).toNat = x.toNat + 2 ^ k * y.toNat := by
  rw [BitVec.toNat_or, BitVec.toNat_shiftLeft, Nat.shiftLeft_eq, Nat.mod_eq_of_lt hy,
    ← Nat.shiftLeft_eq, Nat.or_comm, ← Nat.shiftLeft_add_eq_or_of_lt hx, Nat.shiftLeft_eq]
  ring

@[simp] theorem zeroExtend_byte_toNat (b : Byte) : (b.zeroExtend 32).toNat = b.toNat := by
  have := b.isLt
  rw [BitVec.zeroExtend, BitVec.toNat_setWidth]
  exact Nat.mod_eq_of_lt (by omega)

/-- `le32` as a number: each byte weighs 256 times the one before. -/
theorem le32_toNat (a b c d : Byte) :
    (le32 a b c d).toNat = a.toNat + 256 * (b.toNat + 256 * (c.toNat + 256 * d.toNat)) := by
  have ha := a.isLt
  have hb := b.isLt
  have hc := c.isLt
  have hd := d.isLt
  have h1 : (a.zeroExtend 32 ||| b.zeroExtend 32 <<< 8).toNat = a.toNat + 2 ^ 8 * b.toNat := by
    rw [or_shiftLeft_toNat] <;> simp only [zeroExtend_byte_toNat] <;> omega
  have h2 : (a.zeroExtend 32 ||| b.zeroExtend 32 <<< 8 ||| c.zeroExtend 32 <<< 16).toNat
      = a.toNat + 2 ^ 8 * b.toNat + 2 ^ 16 * c.toNat := by
    rw [or_shiftLeft_toNat] <;> simp only [h1, zeroExtend_byte_toNat]
    all_goals omega
  rw [le32, or_shiftLeft_toNat] <;> simp only [h2, zeroExtend_byte_toNat] <;> omega

/-- Settles O48: MemRead takes the bytes at the index one by one, each weighing 256 times the one
before. -/
theorem memReadIsLittleEndianInsideTheBuffer :
    Obligations.MemReadIsLittleEndianInsideTheBuffer := by
  intro s i n
  refine ⟨memRead_isSome_iff s.buf i n, fun h => ?_, fun h => ?_, fun h => ?_⟩
  all_goals rw [State.memRead, memRead_of_le h]
  · simp [take_drop_succ (show i < s.buf.length by omega), leNat]
  · simp [take_drop_succ (show i < s.buf.length by omega),
      take_drop_succ (show i + 1 < s.buf.length by omega), leNat, le16_toNat]
  · simp [take_drop_succ (show i < s.buf.length by omega),
      take_drop_succ (show i + 1 < s.buf.length by omega),
      take_drop_succ (show i + 2 < s.buf.length by omega),
      take_drop_succ (show i + 3 < s.buf.length by omega), leNat, le32_toNat, Nat.add_assoc]

end Sys2Proof.Machine
end

section
/-! The fetch from the port and of the PRODUCER's autonomous step (30_encoding.md R90 to R92,
43_synchronizer.md R187). -/

namespace Sys2Proof.Machine

/-! ### Bytes that are no command -/

/-- The reserved opcode bytes (30_encoding.md R91, R92). -/
theorem opcodeOf_reserved {op : Byte} (h : op = 0x00#8 ∨ 0x0A ≤ op.toNat) : opcodeOf op = none := by
  cases ho : opcodeOf op with
  | none => rfl
  | some o =>
    obtain rfl := Opcode.code_of_opcodeOf ho
    cases o <;> simp [Opcode.code] at h

theorem decodeCommand_reserved {op : Byte} (h : opcodeOf op = none) (bs : List Byte) :
    decodeCommand (op :: bs) = .error .illegalCommand := by
  simp [decodeCommand, h]

theorem decodeCommand_l_no_length {o : Opcode} (hf : o.format = .l) {bs : List Byte}
    (h : bs.length < 2) : decodeCommand (o.code :: bs) = .error .truncatedCommand := by
  match bs, h with
  | [], _ | [_], _ => simp [decodeCommand, Opcode.opcodeOf_code, hf]

theorem decodeCommand_l_short {o : Opcode} (hf : o.format = .l) {lo hi : Byte} {data : List Byte}
    (h : data.length < lo.toNat + 256 * hi.toNat) :
    decodeCommand (o.code :: lo :: hi :: data) = .error .truncatedCommand := by
  simp [decodeCommand, Opcode.opcodeOf_code, hf, le16_toNat, h]

theorem decodeCommand_p_short {o : Opcode} (hf : o.format = .p) {bs : List Byte}
    (h : bs.length < 14) : decodeCommand (o.code :: bs) = .error .truncatedCommand := by
  simp [decodeCommand, Opcode.opcodeOf_code, hf, h]

/-- The two opcodes of format L. -/
theorem exists_format_l {op : Byte} (h : op = 0x04#8 ∨ op = 0x08#8) :
    ∃ o : Opcode, o.format = .l ∧ op = o.code := by
  rcases h with rfl | rfl
  · exact ⟨.feed, rfl, rfl⟩
  · exact ⟨.crc, rfl, rfl⟩

/-- Settles O44: the fetch is the port's, and its answer is the decoder's refusal, or that of the
agent. -/
theorem thePortRefusesByName : Obligations.ThePortRefusesByName := by
  intro s agent op bs more hfl hturn hport
  obtain ⟨turns, hf⟩ := fetch_of_port_turn hfl hturn
  have truncated (h : decodeCommand (op :: bs) = .error .truncatedCommand) :
      step s = .refused .truncatedCommand := by
    simp [step, hf, portFetch, hport, h]
  refine ⟨fun hop => ?illegal, fun ⟨hop, hbs⟩ => truncated ?noLength,
    fun lo hi data hop hbs hdata => truncated ?short, fun ⟨hop, hbs⟩ => truncated ?payload,
    fun i rest hd hagent => ?wrongAgent⟩
  case illegal =>
    have hd := decodeCommand_reserved (opcodeOf_reserved hop) bs
    simp [step, hf, portFetch, hport, hd]
  case noLength =>
    obtain ⟨o, ho, rfl⟩ := exists_format_l hop
    exact decodeCommand_l_no_length ho hbs
  case short =>
    obtain ⟨o, ho, rfl⟩ := exists_format_l hop
    rw [hbs]
    exact decodeCommand_l_short ho hdata
  case payload =>
    rw [hop]
    exact decodeCommand_p_short (o := .conv) rfl hbs
  case wrongAgent => simp [step, hf, portFetch, hport, hd, hagent]

/-! ### Steps that are run -/

/-- The port's answer to a command of its own agent that is not held. -/
theorem portFetch_of_command {s : State} {agent : Agent} {bytes rest : List Byte}
    {more : List Transaction} {i : Instr} (turns : List Turn)
    (hport : s.port = ⟨agent, bytes⟩ :: more) (hd : decodeCommand bytes = .ok (i, rest))
    (hagent : i.issuer = agent) (hheld : isHeld i s = false) :
    portFetch turns s = .run i { s with port := portAfter agent rest more, sched := turns } := by
  simp [portFetch, hport, hd, hagent, hheld]

/-- Settles O45: on the port's turn, and under the eager schedule, the fetch is the port's. -/
theorem stepRunsTheDecodedCommand : Obligations.StepRunsTheDecodedCommand := by
  intro s agent bytes more i rest hfl hport hd hagent hheld
  have hpf (turns : List Turn) := portFetch_of_command turns hport hd hagent hheld
  refine ⟨fun turns hs => ?_, fun hs ha => ?_⟩
  · simp [step, fetch, hfl, hs, hpf]
  · simp [step, fetch, hfl, hs, ha, hpf]

theorem State.withSched_nil {s : State} (hs : s.sched = []) : { s with sched := [] } = s := by
  rw [← hs]

/-- The eager schedule runs the PRODUCER's autonomous step in the same state. -/
theorem fetch_eager_autonomous {s : State} {i : Instr} (hfl : s.inflight = none)
    (hs : s.sched = []) (ha : s.autonomous = some i) : fetch s = .run i s := by
  have hfetch : fetch s = producerFetch [] s := by simp [fetch, hfl, hs, ha]
  rw [hfetch, producerFetch, ha, State.withSched_nil hs]

theorem portFetch_of_empty {s : State} (turns : List Turn) (hport : s.port = []) :
    portFetch turns s = .pass { s with sched := turns } := by
  unfold portFetch
  split
  · rfl
  · simp_all

/-- Under the eager schedule a machine without a step and without a command waits. -/
theorem fetch_eager_idle {s : State} (hfl : s.inflight = none) (hs : s.sched = [])
    (ha : s.autonomous = none) (hport : s.port = []) : fetch s = .pass s := by
  have hfetch : fetch s = portFetch [] s := by simp [fetch, hfl, hs, ha]
  rw [hfetch, portFetch_of_empty [] hport, State.withSched_nil hs]

/-- Settles O46: the PRODUCER's turn and the eager schedule run its autonomous step; with none the
eager schedule asks the port, which is empty. -/
theorem stepRunsTheAutonomousStep : Obligations.StepRunsTheAutonomousStep := by
  intro s hfl
  refine ⟨fun i turns hs ha => ?_, fun i hs ha => ?_, fun hs ha hport => ?_⟩
  · simp [step, fetch, hfl, hs, producerFetch, ha]
  · rw [step, fetch_eager_autonomous hfl hs ha]
  · rw [step, fetch_eager_idle hfl hs ha hport]

end Sys2Proof.Machine
end

section
/-! Runs of SYNC_STEPs down to a quiescent buffer (43_synchronizer.md R170, R178, R179). -/

namespace Sys2Proof.Machine

/-! ### One SYNC_STEP in a run of them -/

theorem exec_syncStep_length_lt {s t : State} (h : exec .syncStep s = .next t) :
    t.buf.length < s.buf.length := by
  obtain ⟨hlen, hb | hb⟩ := exec_syncStep_buf h <;> rw [hb, List.length_drop] <;> omega

theorem exec_syncStep_inflight {s t : State} (hfl : s.inflight = none)
    (h : exec .syncStep s = .next t) : t.inflight = none := by
  obtain ⟨-, ⟨-, rfl⟩ | ⟨-, rfl⟩ | ⟨-, rfl⟩ | ⟨-, -, rfl⟩⟩ := exec_syncStep_cases h
  case inr.inr.inr => exact State.pushSample_inflight _ _
  all_goals exact hfl

/-- Losses are not among the events of steps. -/
theorem State.pushSample_stepEvents (m : Sample) (s : State) :
    (s.pushSample m).stepEvents = s.stepEvents := by
  rcases State.pushSample_cases m s with
    ⟨-, e⟩ | ⟨-, -, d, rest, -, e⟩ | ⟨-, -, e⟩ | ⟨-, -, e⟩ <;>
    simp [e, State.stepEvents, Event.isDrop]

/-- A SYNC_STEP takes off the front what the class of its window says, and records the window's
event. -/
theorem exec_syncStep_window {s t : State} (h : exec .syncStep s = .next t) :
    t.buf = s.buf.drop (consumedBytes (classify (s.buf.take 24))) ∧
    t.stepEvents = s.stepEvents ++ [windowEvent (s.buf.take 24)] := by
  obtain ⟨-, ⟨hc, rfl⟩ | ⟨hc, rfl⟩ | ⟨hc, rfl⟩ | ⟨hc, -, rfl⟩⟩ := exec_syncStep_cases h
  case inr.inr.inr =>
    rw [State.pushSample_stepEvents, State.pushSample_buf]
    simp [State.accepting, windowEvent, consumedBytes, hc, State.stepEvents, Event.isDrop]
  all_goals simp [windowEvent, consumedBytes, hc, State.stepEvents, Event.isDrop]

/-! ### Any number of SYNC_STEPs -/

/-- One state is reached from another by SYNC_STEPs alone. -/
def SyncSteps : State → State → Prop :=
  Relation.ReflTransGen fun s t => exec .syncStep s = .next t

theorem SyncSteps.pstate {s t : State} (h : SyncSteps s t) (hp : s.pstate = .run) :
    t.pstate = .run := by
  induction h with
  | refl => exact hp
  | tail _ hstep _ => exact exec_syncStep_pstate hstep

/-- With a capacity of at least 1, SYNC_STEPs lead to a quiescent buffer. -/
theorem SyncSteps.exists_quiescent (s : State) (hp : s.pstate = .run) (hcap : 1 ≤ s.cfgCap) :
    ∃ t, SyncSteps s t ∧ t.buf.length < 24 := by
  by_cases hlen : s.buf.length < 24
  · exact ⟨s, .refl, hlen⟩
  · obtain ⟨u, hu⟩ := exec_syncStep_exists hp (by omega) hcap
    have hlt := exec_syncStep_length_lt hu
    obtain ⟨hcapEq, -⟩ := exec_syncStep_sameConfig hu
    obtain ⟨t, ht, hq⟩ :=
      SyncSteps.exists_quiescent u (exec_syncStep_pstate hu) (by rwa [hcapEq])
    exact ⟨t, .head hu ht, hq⟩
termination_by s.buf.length

/-- With enough fuel, `syncAll` answers the quiescent state its SYNC_STEPs lead to: each one
shortens `buf`. -/
theorem SyncSteps.syncAll_eq {s t : State} (h : SyncSteps s t) (ht : t.buf.length < 24) :
    ∀ n, s.buf.length - 23 ≤ n → syncAll n s = .next t := by
  induction h using Relation.ReflTransGen.head_induction_on with
  | refl =>
    intro n _
    have hdis : ¬ t.syncEnabled = true := by
      rw [State.syncEnabled_iff]
      omega
    cases n with
    | zero => rfl
    | succ n => rw [syncAll, if_neg hdis]
  | head hstep _ ih =>
    intro n hn
    obtain ⟨hen, -⟩ := exec_syncStep_cases hstep
    have hlt := exec_syncStep_length_lt hstep
    cases n with
    | zero => omega
    | succ n =>
      rw [syncAll, if_pos ((State.syncEnabled_iff _).mpr hen), hstep]
      exact ih n (by omega)

theorem SyncSteps.quiesce_eq {s t : State} (h : SyncSteps s t) (ht : t.buf.length < 24) :
    quiesce s = .next t := h.syncAll_eq ht _ le_rfl

/-- Settles O18: each SYNC_STEP shortens the buffer, so the run of them to a quiescent buffer fits
the fuel. -/
theorem syncStepsMakeProgressToQuiescence : Obligations.SyncStepsMakeProgressToQuiescence := by
  refine ⟨fun s t h => ⟨(exec_syncStep_buf h).2, exec_syncStep_length_lt h⟩, fun s hp hcap => ?_⟩
  obtain ⟨t, ht, hq⟩ := SyncSteps.exists_quiescent s hp hcap
  exact ⟨t, ht.syncAll_eq hq _ le_rfl, hq, ht.pstate hp⟩

/-! ### The canonical sequence -/

theorem windowsOf_of_short {bs : List Byte} (h : bs.length < 24) (n : Nat) :
    windowsOf n bs = ([], bs) := by
  cases n with
  | zero => rfl
  | succ n => exact if_pos h

theorem windowsOf_succ {bs : List Byte} (h : 24 ≤ bs.length) (n : Nat) :
    windowsOf (n + 1) bs =
      (bs.take 24 :: (windowsOf n (bs.drop (consumedBytes (classify (bs.take 24))))).1,
        (windowsOf n (bs.drop (consumedBytes (classify (bs.take 24))))).2) :=
  if_neg (by simpa using h)

/-- A run of SYNC_STEPs to a quiescent buffer is that of the windows of the buffer it starts from.
-/
theorem SyncSteps.windowsOf_eq {s t : State} (h : SyncSteps s t) (ht : t.buf.length < 24) :
    ∀ n, s.buf.length ≤ n → t.buf = (windowsOf n s.buf).2 ∧
      t.stepEvents = s.stepEvents ++ (windowsOf n s.buf).1.map windowEvent := by
  induction h using Relation.ReflTransGen.head_induction_on with
  | refl =>
    intro n _
    simp [windowsOf_of_short ht]
  | head hstep _ ih =>
    intro n hn
    obtain ⟨⟨-, hlen⟩, -⟩ := exec_syncStep_cases hstep
    have hlt := exec_syncStep_length_lt hstep
    obtain ⟨hbuf, hev⟩ := exec_syncStep_window hstep
    cases n with
    | zero => omega
    | succ n =>
      obtain ⟨htbuf, htev⟩ := ih n (by omega)
      rw [windowsOf_succ hlen, ← hbuf]
      refine ⟨htbuf, ?_⟩
      rw [htev, hev, List.map_cons, List.append_assoc, List.singleton_append]

/-- Settles O19: the run of SYNC_STEPs to a quiescent buffer follows the windows. -/
theorem theStreamDeterminesTheSteps : Obligations.TheStreamDeterminesTheSteps := by
  intro s hp hcap
  obtain ⟨t, ht, hq⟩ := SyncSteps.exists_quiescent s hp hcap
  exact ⟨t, ht.quiesce_eq hq, hq, ht.windowsOf_eq hq _ le_rfl⟩

/-! ### The bound on a stop -/

/-- A session under the eager schedule, with no Sample in flight. -/
def State.Eager (s : State) : Prop := s.inflight = none ∧ s.sched = []

theorem State.Eager.syncStep {s t : State} (he : s.Eager) (h : exec .syncStep s = .next t) :
    t.Eager := by
  obtain ⟨hfl, hs⟩ := he
  refine ⟨exec_syncStep_inflight hfl h, ?_⟩
  rw [exec_syncStep_frame h]
  exact hs

theorem State.Eager.step_eq {s : State} {i : Instr} (he : s.Eager) (ha : s.autonomous = some i) :
    step s = exec i s := by
  obtain ⟨hfl, hs⟩ := he
  rw [step, fetch_eager_autonomous hfl hs ha]

theorem State.autonomous_of_syncEnabled {s : State} (h : s.syncEnabled = true) :
    s.autonomous = some .syncStep := if_pos h

/-- The eager machine takes the SYNC_STEPs of a stopped session one by one and then observes the
stop. -/
theorem SyncSteps.steps_to_halt {s t : State} (h : SyncSteps s t) (ht : t.buf.length < 24)
    (he : s.Eager) (hp : s.pstate = .run) (hstop : s.stop = true) :
    ∃ k, k ≤ s.buf.length - 23 + 1 ∧ steps k s = .next (t.halt.emit .stopped) := by
  induction h using Relation.ReflTransGen.head_induction_on with
  | refl =>
    have hen : t.stopEnabled = true := t.stopEnabled_iff.mpr ⟨hp, hstop, ht⟩
    have hexec : exec .observeStop t = .next (t.halt.emit .stopped) :=
      (exec_observeStop_next t _).mpr ⟨hen, rfl⟩
    refine ⟨1, by omega, ?_⟩
    simp [steps, he.step_eq (State.autonomous_of_stopEnabled hen), hexec]
  | head hstep _ ih =>
    obtain ⟨hen, -⟩ := exec_syncStep_cases hstep
    have hlt := exec_syncStep_length_lt hstep
    obtain ⟨k, hk, hsteps⟩ := ih (he.syncStep hstep) (exec_syncStep_pstate hstep)
      ((exec_syncStep_stop hstep).trans hstop)
    refine ⟨k + 1, by omega, ?_⟩
    have hauto := State.autonomous_of_syncEnabled ((State.syncEnabled_iff _).mpr hen)
    rw [steps, he.step_eq hauto, hstep]
    exact hsteps

theorem SyncSteps.port_results {s t : State} (h : SyncSteps s t) :
    t.port = s.port ∧ t.results = s.results := by
  induction h with
  | refl => exact ⟨rfl, rfl⟩
  | tail _ hstep ih =>
    rw [exec_syncStep_frame hstep]
    exact ih

/-- Settles O24: under the eager schedule the steps are the SYNC_STEPs to a quiescent buffer and
then OBSERVE_STOP. -/
theorem stopTakesEffectWithinABound : Obligations.StopTakesEffectWithinABound := by
  intro s hp hstop hs hfl hcap
  obtain ⟨t, ht, hq⟩ := SyncSteps.exists_quiescent s hp hcap
  obtain ⟨k, hk, hsteps⟩ := ht.steps_to_halt hq ⟨hfl, hs⟩ hp hstop
  obtain ⟨hport, hresults⟩ := ht.port_results
  exact ⟨k, t.halt.emit .stopped, hk, hsteps, rfl, hport, hresults, hq⟩

end Sys2Proof.Machine
end

section
/-! Frames in the stream: noise before one, two back to back (43_synchronizer.md R182, R188). -/

namespace Sys2Proof.Machine

/-- A valid frame at the front of `buf`, with room in the queue. -/
theorem exec_syncStep_accepts {s : State} {frame : List Byte} (rest : List Byte)
    (hp : s.pstate = .run) (hfl : s.inflight = none) (hroom : s.q.length < s.cfgCap)
    (hlen : frame.length = 24) (hc : classify frame = .accept) :
    exec .syncStep { s with buf := frame ++ rest } = .next { s with
      buf := rest, evlog := s.evlog ++ [.accept (byteAt frame 5)],
      q := s.q ++ [convert ((frame.drop 5).take 14) (Config.timeSource s.draws)],
      draws := s.draws + 1 } := by
  have htake : (frame ++ rest).take 24 = frame := by rw [← hlen, List.take_left']; rfl
  have hdrop : (frame ++ rest).drop 24 = rest := by rw [← hlen, List.drop_left']; rfl
  rw [exec_syncStep_of_enabled (s := { s with buf := frame ++ rest }) ⟨hp, by simp [hlen]⟩]
  simp only [htake, runWindow, hc]
  rw [acceptWindow_eq hlen (by simp only; omega),
    State.pushSample_of_room (s := State.accepting frame { s with buf := frame ++ rest }) _ hroom]
  simp [State.accepting, State.enqueue, hdrop, ← seqField_payload, payload, State.timeNow, hfl]

/-- Bytes with no marker pair before a frame are skipped one by one: the frame's own first byte is
the first of a marker pair, not the second. -/
theorem SyncSteps.of_noise {frame : List Byte} (hlen : frame.length = 24)
    (hm : byteAt frame 0 = 0x4E#8) (s : State) (hp : s.pstate = .run) (noise : List Byte)
    (hn : ∀ j, j + 1 < noise.length →
      ¬ (byteAt noise j = 0x4E#8 ∧ byteAt noise (j + 1) = 0x45#8)) :
    SyncSteps { s with buf := noise ++ frame }
      { s with buf := frame, evlog := s.evlog ++ noise.map Event.skip } := by
  induction noise generalizing s with
  | nil =>
    rw [List.nil_append, List.map_nil, List.append_nil]
    exact .refl
  | cons b noise ih =>
    have hpair : ¬ (b = 0x4E#8 ∧ byteAt (noise ++ frame) 0 = 0x45#8) := by
      cases noise with
      | nil =>
        rw [List.nil_append, hm]
        rintro ⟨-, h⟩
        cases h
      | cons b' noise => exact hn 0 (by simp)
    have hskip := (skipDropsExactlyOneByte { s with buf := b :: noise ++ frame } hp
      (by simp only [List.length_append]; omega)
      (by simpa [byteAt, List.getD, imp_iff_not_or] using hpair)).1
    have hrest := ih { s with evlog := s.evlog ++ [.skip b] } hp
      fun j hj => hn (j + 1) (by simpa using hj)
    refine .head hskip ?_
    simpa [byteAt, SyncSteps] using hrest

/-- Settles O21: the noise is skipped, then the frame is accepted, which leaves nothing. -/
theorem noiseBeforeAFrameIsSkipped : Obligations.NoiseBeforeAFrameIsSkipped := by
  intro s noise frame hp hfl hroom hlen hc hn
  obtain ⟨hm, -⟩ := (classify_eq_accept_iff frame).mp hc
  have hskips := SyncSteps.of_noise hlen ((isMarker_iff frame).mp hm).1 s hp noise hn
  have haccept := exec_syncStep_accepts (s := { s with evlog := s.evlog ++ noise.map Event.skip })
    [] hp hfl hroom hlen hc
  rw [List.append_nil] at haccept
  exact SyncSteps.quiesce_eq (hskips.tail haccept) (by simp)

/-- Settles O22: two frames accepted one after the other. -/
theorem backToBackFramesGiveBothSamples : Obligations.BackToBackFramesGiveBothSamples := by
  intro s f g hp hfl hroom hf hcf hg hcg
  have h1 := exec_syncStep_accepts (s := s) g hp hfl (by omega) hf hcf
  have h2 := exec_syncStep_accepts (s := { s with
      evlog := s.evlog ++ [.accept (byteAt f 5)],
      q := s.q ++ [convert ((f.drop 5).take 14) (Config.timeSource s.draws)],
      draws := s.draws + 1 }) [] hp hfl (by simpa using hroom) hg hcg
  rw [List.append_nil] at h2
  have hrun := SyncSteps.quiesce_eq (.head h1 (.single h2)) (by simp)
  simpa using hrun

end Sys2Proof.Machine
end

section
/-! Chunking invariance (43_synchronizer.md R180): a run fed chunk by chunk is followed, SYNC_STEP
by SYNC_STEP, by one that has the bytes still to come in its buffer already and whose time source
has given other values. -/

namespace Sys2Proof.Machine

/-- The second state has what the first has, but for `c` standing at the end of its buffer and for
the timestamps. -/
structure State.Tracks (c : List Byte) (s u : State) : Prop where
  pstate : s.pstate = u.pstate
  stop : s.stop = u.stop
  err : s.err = u.err
  buf : u.buf = s.buf ++ c
  evlog : s.evlog = u.evlog
  q : s.q.map Sample.untimed = u.q.map Sample.untimed
  cfgCap : s.cfgCap = u.cfgCap
  cfgPolicy : s.cfgPolicy = u.cfgPolicy

theorem State.Tracks.q_length {c : List Byte} {s u : State} (h : s.Tracks c u) :
    s.q.length = u.q.length := by
  simpa using congrArg List.length h.q

theorem Sample.seq_eq_of_untimed {m m' : Sample} (h : m.untimed = m'.untimed) : m.seq = m'.seq :=
  by simpa [Sample.untimed] using congrArg Sample.seq h

theorem convert_untimed (p : List Byte) (ts ts' : Time) :
    (convert p ts).untimed = (convert p ts').untimed := rfl

theorem State.Tracks.pushSample {c : List Byte} {s u : State} {m m' : Sample} (h : s.Tracks c u)
    (hm : m.untimed = m'.untimed) : (s.pushSample m).Tracks c (u.pushSample m') := by
  have hlen := h.q_length
  have hcap := h.cfgCap
  have hpol := h.cfgPolicy
  by_cases hroom : s.q.length < s.cfgCap
  · rw [State.pushSample_of_room m hroom, State.pushSample_of_room m' (by omega)]
    exact { h with q := by simp [h.q, hm] }
  cases hp : s.cfgPolicy with
  | dropNewest =>
    rw [State.pushSample_of_full_newest m (by omega) hp,
      State.pushSample_of_full_newest m' (by omega) (hpol.symm.trans hp)]
    exact { h with evlog := by simp [h.evlog, Sample.seq_eq_of_untimed hm] }
  | dropOldest =>
    rw [State.pushSample_of_full_oldest m (by omega) hp,
      State.pushSample_of_full_oldest m' (by omega) (hpol.symm.trans hp)]
    cases hq : s.q with
    | nil =>
      have hq' : u.q = [] := List.eq_nil_of_length_eq_zero (by rw [← hlen, hq]; rfl)
      simpa [State.replaceOldest, hq, hq'] using h
    | cons d rest =>
      obtain ⟨d', rest', hq'⟩ : ∃ d' rest', u.q = d' :: rest' :=
        List.exists_cons_of_length_pos (by rw [← hlen, hq]; simp)
      have hmap := h.q
      rw [hq, hq', List.map_cons, List.map_cons, List.cons.injEq] at hmap
      obtain ⟨hd, hrest⟩ := hmap
      rw [State.replaceOldest_cons hq, State.replaceOldest_cons hq']
      exact { h with
        q := by simp [hrest, hm]
        evlog := by simp [h.evlog, Sample.seq_eq_of_untimed hd] }

/-- Taking bytes off the front and recording an event in both. -/
theorem State.Tracks.consume_emit {c : List Byte} {s u : State} {n : Nat} (h : s.Tracks c u)
    (hn : n ≤ s.buf.length) (e : Event) :
    ((s.consume n).emit e).Tracks c ((u.consume n).emit e) :=
  { h with
    buf := by simp [h.buf, List.drop_append_of_le_length hn]
    evlog := by simp [h.evlog] }

/-- SYNC_STEPs read the front window only. -/
theorem State.Tracks.syncStep {c : List Byte} {s u s' : State} (h : s.Tracks c u)
    (hs : exec .syncStep s = .next s') : ∃ u', exec .syncStep u = .next u' ∧ s'.Tracks c u' := by
  obtain ⟨⟨hp, hlen⟩, hcase⟩ := exec_syncStep_cases hs
  have htake : u.buf.take 24 = s.buf.take 24 := by
    rw [h.buf, List.take_append_of_le_length hlen]
  have hulen : 24 ≤ u.buf.length := by
    rw [h.buf, List.length_append]
    omega
  rw [exec_syncStep_of_enabled ⟨h.pstate.symm.trans hp, hulen⟩, htake]
  rcases hcase with ⟨hc, rfl⟩ | ⟨hc, rfl⟩ | ⟨hc, rfl⟩ | ⟨hc, hcap, rfl⟩ <;> rw [runWindow, hc]
  · exact ⟨_, rfl, h.consume_emit (by omega) _⟩
  · exact ⟨_, rfl, h.consume_emit hlen _⟩
  · exact ⟨_, rfl, h.consume_emit hlen _⟩
  · refine ⟨_, acceptWindow_eq (by simp [hlen]) (h.cfgCap ▸ hcap), ?_⟩
    refine State.Tracks.pushSample ?_ (convert_untimed _ _ _)
    exact { h.consume_emit hlen (.accept (seqField (payload (s.buf.take 24)))) with }

theorem State.Tracks.syncSteps {c : List Byte} {s u s' : State} (h : s.Tracks c u)
    (hs : SyncSteps s s') : ∃ u', SyncSteps u u' ∧ s'.Tracks c u' := by
  induction hs with
  | refl => exact ⟨u, .refl, h⟩
  | tail _ hstep ih =>
    obtain ⟨v, hv, hvt⟩ := ih
    obtain ⟨u', hu', ht⟩ := hvt.syncStep hstep
    exact ⟨u', .tail hv hu', ht⟩

theorem SyncSteps.stop_cap {s t : State} (h : SyncSteps s t) :
    t.stop = s.stop ∧ t.cfgCap = s.cfgCap := by
  induction h with
  | refl => exact ⟨rfl, rfl⟩
  | tail _ hstep ih =>
    rw [exec_syncStep_frame hstep]
    exact ih

/-- One operation after another, up to the first that is no next state. -/
def andThen (o : Outcome) (f : State → Outcome) : Outcome :=
  match o with
  | .next t => f t
  | .fault r => .fault r
  | .refused r => .refused r

@[simp] theorem andThen_next (t : State) (f : State → Outcome) : andThen (.next t) f = f t := rfl

/-- The equation of `feedAll` at a chunk: FEED, then rest, then the chunks left. -/
theorem feedAll_cons (c : List Byte) (cs : List (List Byte)) (s : State) :
    feedAll (c :: cs) s
      = andThen (exec (.feed c) s) fun t => andThen (quiesce t) (feedAll cs) := by
  rfl

/-- A FEED taken by a read, and the SYNC_STEPs after it. -/
theorem feedAll_cons_of_read {c : List Byte} {s t : State} (cs : List (List Byte))
    (hread : s.readEnabled = true) (h : SyncSteps (s.append c) t) (ht : t.buf.length < 24) :
    feedAll (c :: cs) s = feedAll cs t := by
  have hfeed : exec (.feed c) s = .next (s.append c) :=
    (exec_feed_next c s _).mpr (.inl ⟨hread, rfl⟩)
  rw [feedAll_cons, hfeed, andThen_next, h.quiesce_eq ht, andThen_next]

/-- Feeding chunk by chunk is followed by the state with all of them in its buffer. -/
theorem State.Tracks.feedAll (chunks : List (List Byte)) {s u : State}
    (h : s.Tracks chunks.flatten u) (hread : s.readEnabled = true) (hcap : 1 ≤ s.cfgCap) :
    ∃ t v, feedAll chunks s = .next t ∧ SyncSteps u v ∧ v.buf.length < 24 ∧ t.Tracks [] v := by
  induction chunks generalizing s u with
  | nil =>
    obtain ⟨-, -, hq⟩ := s.readEnabled_iff.mp hread
    exact ⟨s, u, rfl, .refl, by simpa [h.buf] using hq, h⟩
  | cons c cs ih =>
    obtain ⟨hp, hstop, -⟩ := s.readEnabled_iff.mp hread
    obtain ⟨s', hs', hq'⟩ := SyncSteps.exists_quiescent (s.append c) hp hcap
    have happ : (s.append c).Tracks cs.flatten u := { h with buf := by simp [h.buf] }
    obtain ⟨u', hu', ht'⟩ := happ.syncSteps hs'
    obtain ⟨hstop', hcap'⟩ := hs'.stop_cap
    have hread' : s'.readEnabled = true :=
      s'.readEnabled_iff.mpr ⟨hs'.pstate hp, hstop'.trans hstop, hq'⟩
    obtain ⟨t, v, hfeed, hv, hvq, htv⟩ := ih ht' hread' (by rw [hcap']; exact hcap)
    exact ⟨t, v, by rw [feedAll_cons_of_read cs hread hs' hq', hfeed], hu'.trans hv, hvq, htv⟩

/-- Settles O20: the run fed all at once starts with every chunk in its buffer, so it follows the
one fed chunk by chunk. -/
theorem chunkingDoesNotMatter : Obligations.ChunkingDoesNotMatter := by
  intro s n chunks hp hstop hlen hcap
  have hread : s.readEnabled = true := s.readEnabled_iff.mpr ⟨hp, hstop, hlen⟩
  have hstart : s.Tracks chunks.flatten ({ s with draws := n }.append chunks.flatten) :=
    ⟨rfl, rfl, rfl, rfl, rfl, rfl, rfl, rfl⟩
  obtain ⟨t, u, ht, hu, huq, htu⟩ := hstart.feedAll chunks hread hcap
  refine ⟨t, u, ht, ?_, ?_, htu.evlog, htu.q, htu.pstate, htu.stop, htu.err⟩
  · rw [feedAll_cons_of_read (s := { s with draws := n }) [] hread hu huq]
    rfl
  · simpa using htu.buf.symm

end Sys2Proof.Machine
end

section
/-! What a step does to the Samples: nothing or a DRAIN, a RESET, or an ACCEPT (44_channel.md R208,
R209; 43_synchronizer.md R189). -/

namespace Sys2Proof.Machine

/-- No ACCEPT and no loss; what leaves the queue is drained, in order. -/
structure State.Passes (s t : State) : Prop where
  accepts : t.accepts = s.accepts
  drops : t.drops = s.drops
  samples : t.drainedSamples ++ t.q = s.drainedSamples ++ s.q
  q : t.q ⊆ s.q

/-- The queue is discarded, as RESET does. -/
structure State.Discards (s t : State) : Prop where
  accepts : t.accepts = s.accepts
  drops : t.drops = s.drops
  drained : t.drainedSamples = s.drainedSamples
  q : t.q = []

/-- A new Sample is pushed: queued behind the others, queued with the loss of the oldest, or lost
itself. -/
structure State.Accepts (s t : State) (m : Sample) : Prop where
  accepts : t.accepts = s.accepts + 1
  drained : t.drainedSamples = s.drainedSamples
  q : (t.drops = s.drops ∧ t.q = s.q ++ [m]) ∨
    (t.drops = s.drops + 1 ∧ ∃ d rest, s.q = d :: rest ∧ t.q = rest ++ [m]) ∨
    (t.drops = s.drops + 1 ∧ t.q = s.q)

/-- A step that leaves the queue, the log and the returned values alone. -/
theorem State.Passes.of_quiet {s t : State} (hlog : t.evlog = s.evlog) (hq : t.q = s.q)
    (hr : t.results = s.results) : s.Passes t := by
  refine ⟨?_, ?_, ?_, ?_⟩ <;>
    simp [State.accepts, State.drops, State.drainedSamples, hlog, hq, hr]

/-- An event that is neither an ACCEPT nor a loss, in a step that leaves the queue alone. -/
theorem State.Passes.of_event {s t : State} {e : Event} (ha : e.isAccept = false)
    (hd : e.isDrop = false) (hlog : t.evlog = s.evlog ++ [e]) (hq : t.q = s.q)
    (hr : t.results = s.results) : s.Passes t := by
  refine ⟨?_, ?_, ?_, ?_⟩ <;>
    simp [State.accepts, State.drops, State.drainedSamples, hlog, hq, hr, ha, hd]

/-- A returned value that delivers no Sample. -/
theorem State.Passes.of_answer {s t : State} {r : Result} (hd : r.drained = [])
    (hlog : t.evlog = s.evlog) (hq : t.q = s.q) (hr : t.results = s.results ++ [r]) :
    s.Passes t := by
  refine ⟨?_, ?_, ?_, ?_⟩ <;>
    simp [State.accepts, State.drops, State.drainedSamples, hlog, hq, hr, hd]

theorem State.drainAll_passes (s : State) : s.Passes s.drainAll := by
  refine ⟨rfl, rfl, ?_, List.nil_subset _⟩
  simp [State.drainedSamples, Result.drained]

theorem State.accepting_pushSample {s : State} (w : List Byte) (m : Sample) (hcap : 1 ≤ s.cfgCap) :
    s.Accepts ((s.accepting w).pushSample m) m := by
  rcases State.pushSample_cases_of_cap (s := s.accepting w) (m := m) hcap with
    ⟨-, e⟩ | ⟨-, -, d, rest, hq, e⟩ | ⟨-, -, e⟩ <;> rw [e]
  · refine ⟨?_, rfl, .inl ⟨?_, rfl⟩⟩ <;>
      simp [State.accepts, State.drops, State.accepting, List.countP_cons, Event.isAccept,
        Event.isDrop]
  · refine ⟨?_, rfl, .inr (.inl ⟨?_, d, rest, hq, rfl⟩)⟩ <;>
      simp [State.accepts, State.drops, State.accepting, List.countP_cons, Event.isAccept,
        Event.isDrop]
  · refine ⟨?_, rfl, .inr (.inr ⟨?_, rfl⟩)⟩ <;>
      simp [State.accepts, State.drops, State.accepting, List.countP_cons, Event.isAccept,
        Event.isDrop]

/-- A SYNC_STEP passes the Samples on, or accepts the front window's. -/
theorem exec_syncStep_samples {s t : State} (h : exec .syncStep s = .next t) :
    s.Passes t ∨
    ((s.pstate = .run ∧ 24 ≤ s.buf.length) ∧ classify (s.buf.take 24) = .accept ∧
      ∃ m, s.Accepts t m) := by
  obtain ⟨hen, ⟨-, rfl⟩ | ⟨-, rfl⟩ | ⟨-, rfl⟩ | ⟨hc, hcap, rfl⟩⟩ := exec_syncStep_cases h
  case inr.inr.inr => exact .inr ⟨hen, hc, _, State.accepting_pushSample _ _ hcap⟩
  all_goals exact .inl (.of_event rfl rfl rfl rfl rfl)

/-- What an instruction does to the Samples when none is in flight. -/
theorem exec_samples {i : Instr} {s t : State} (hfl : s.inflight = none)
    (h : exec i s = .next t) :
    s.Passes t ∨ (i = .reset ∧ s.Discards t) ∨
    ((s.pstate = .run ∧ 24 ≤ s.buf.length) ∧ classify (s.buf.take 24) = .accept ∧
      ∃ m, s.Accepts t m) := by
  rcases exec_cases h with ⟨hi, rfl⟩ | ⟨-, -, rfl⟩ | ⟨-, rfl⟩ | ⟨c, -, ⟨-, rfl⟩ | ⟨-, rfl⟩⟩ |
    ⟨-, -, rfl⟩ | ⟨-, rfl⟩ | ⟨-, rfl⟩ | ⟨d, -, rfl⟩ | ⟨p, -, -, rfl⟩ | ⟨-, -, rfl⟩ |
    ⟨-, m, hm, -, -⟩ | ⟨-, hsync⟩
  · exact .inr (.inl ⟨hi, rfl, rfl, rfl, rfl⟩)
  · exact .inl (.of_quiet rfl rfl rfl)
  · exact .inl (.of_quiet rfl rfl rfl)
  · exact .inl (.of_quiet rfl rfl rfl)
  · exact .inl (.of_quiet rfl rfl rfl)
  · exact .inl (.of_event (e := .transportError) rfl rfl rfl rfl rfl)
  · exact .inl (State.drainAll_passes _)
  · exact .inl (.of_answer (r := .status _ _ _) rfl rfl rfl rfl)
  · exact .inl (.of_answer (r := .crc _) rfl rfl rfl rfl)
  · exact .inl (.of_answer (r := .sample _) rfl rfl rfl rfl)
  · exact .inl (.of_event (e := .stopped) rfl rfl rfl rfl rfl)
  · rw [hfl] at hm
    cases hm
  · rcases exec_syncStep_samples hsync with hp | ha
    · exact .inl hp
    · exact .inr (.inr ha)

/-- What a step of the machine does to the Samples when none is in flight. -/
theorem step_samples {s t : State} (hfl : s.inflight = none) (h : step s = .next t) :
    s.Passes t ∨ ((∃ s', fetch s = .run .reset s') ∧ s.Discards t) ∨
    ((s.pstate = .run ∧ 24 ≤ s.buf.length) ∧ classify (s.buf.take 24) = .accept ∧
      ∃ m, s.Accepts t m) := by
  rcases step_cases h with ⟨i, s', hf, hcore, hexec⟩ | ⟨-, hcore⟩
  · rw [hcore] at hexec
    rcases exec_samples (s := { s with port := s'.port, sched := s'.sched }) hfl hexec with
      hp | ⟨rfl, hd⟩ | ⟨hen, hc, m, ha⟩
    · exact .inl ⟨hp.accepts, hp.drops, hp.samples, hp.q⟩
    · exact .inr (.inl ⟨⟨s', hf⟩, hd.accepts, hd.drops, hd.drained, hd.q⟩)
    · exact .inr (.inr ⟨hen, hc, m, ha.accepts, ha.drained, ha.q⟩)
  · rw [hcore]
    exact .inl (.of_quiet rfl rfl rfl)

/-- Settles O23: only an ACCEPT of the front window adds an event or a Sample. -/
theorem nothingIsAcceptedWithoutAMatchingCrc :
    Obligations.NothingIsAcceptedWithoutAMatchingCrc := by
  intro s t hfl h hnew
  rcases step_samples hfl h with hp | ⟨-, hd⟩ | ⟨⟨hrun, hlen⟩, hc, -⟩
  · rcases hnew with hne | ⟨m, hm, hnot⟩
    · exact absurd hp.accepts hne
    · exact absurd (hp.q hm) hnot
  · rcases hnew with hne | ⟨m, hm, -⟩
    · exact absurd hd.accepts hne
    · simp [hd.q] at hm
  · obtain ⟨hm, ht, hcrc⟩ := (classify_eq_accept_iff _).mp hc
    obtain ⟨h0, h1⟩ := (isMarker_take _).mp hm
    exact ⟨hrun, hlen, h0, h1, (msgType_take _).symm.trans ht, (crcOk_take _).mp hcrc⟩

/-- Settles O29: nothing is pushed but by an ACCEPT, which appends behind the queue; a loss leaves
the head or the new Sample out, a RESET the queue. -/
theorem samplesKeepTheirOrder : Obligations.SamplesKeepTheirOrder := by
  rintro s t ⟨-, -, -, hfl, -⟩ h
  rcases step_samples hfl h with hp | ⟨⟨s', hreset⟩, hd⟩ | ⟨-, -, m, ha⟩
  · refine ⟨[], hp.accepts, by simp, ?_, fun _ _ => ?_⟩
    · simp [hp.samples]
    · simp [hp.samples]
  · refine ⟨[], hd.accepts, by simp, ?_, fun _ hno => absurd hreset (hno s')⟩
    simp [hd.drained, hd.q]
  · refine ⟨[m], ha.accepts, by simp, ?_, fun hdrops _ => ?_⟩
    · rw [ha.drained]
      rcases ha.q with ⟨-, hq⟩ | ⟨-, d, rest, hs, hq⟩ | ⟨-, hq⟩ <;> rw [hq]
      · rw [List.append_assoc]
      · rw [hs, List.append_assoc, List.cons_append]
        exact (List.sublist_cons_self _ _).append_left _
      · exact List.sublist_append_left _ _
    · rcases ha.q with ⟨-, hq⟩ | ⟨hd, -⟩ | ⟨hd, -⟩
      · rw [ha.drained, hq, List.append_assoc]
      · omega
      · omega

/-- Settles O30: in each case the three places a Sample can stand account for it. -/
theorem everySampleIsAccountedFor : Obligations.EverySampleIsAccountedFor := by
  rintro s t ⟨-, -, -, hfl, -⟩ h
  rcases step_samples hfl h with hp | ⟨hreset, hd⟩ | ⟨-, -, m, ha⟩
  · left
    have hlen := congrArg List.length hp.samples
    simp only [List.length_append] at hlen
    have := hp.accepts
    have := hp.drops
    simp only [State.accounted]
    omega
  · right
    refine ⟨hreset, hd.accepts, hd.q, ?_⟩
    simp [State.accounted, hd.drained, hd.drops, hd.q]
  · left
    rw [State.accounted, State.accounted, ha.accepts, ha.drained]
    rcases ha.q with ⟨hd, hq⟩ | ⟨hd, d, rest, hs, hq⟩ | ⟨hd, hq⟩
    · rw [hd, hq, List.length_append, List.length_singleton]
      omega
    · rw [hd, hq, hs, List.length_append, List.length_singleton, List.length_cons]
      omega
    · rw [hd, hq]
      omega

end Sys2Proof.Machine
end

section
/-! The CONSUMER on the port (20_memory.md R63, 60_exceptions.md R255). -/

namespace Sys2Proof.Machine

/-- Only an empty transaction has no command. -/
theorem eq_nil_of_decodeCommand_noCommand {bs : List Byte}
    (h : decodeCommand bs = .error .noCommand) : bs = [] := by
  unfold decodeCommand at h
  split at h
  case h_1 => rfl
  case h_2 =>
    split at h
    case h_1 => cases h
    case h_2 =>
      split at h
      case h_1 => cases h
      case h_2 =>
        split at h
        case h_2 => cases h
        case h_1 => split at h <;> cases h
      case h_3 => split at h <;> cases h

/-- DRAIN is the only instruction the CONSUMER issues. -/
theorem eq_drain_of_issuer {i : Instr} (h : i.issuer = .consumer) : i = .drain := by
  cases i with
  | drain => rfl
  | _ => cases h

/-- A step that takes the CONSUMER's bytes off the port decodes them to a DRAIN and runs it. -/
theorem step_of_consumer {s t : State} {bytes : List Byte} {more : List Transaction}
    (hfl : s.inflight = none)
    (hturn : s.sched.head? = some .port ∨ (s.sched = [] ∧ s.autonomous = none))
    (hport : s.port = ⟨.consumer, bytes⟩ :: more) (hne : bytes ≠ []) (h : step s = .next t) :
    ∃ rest s', decodeCommand bytes = .ok (.drain, rest) ∧ s.SameCore s' ∧ t = s'.drainAll := by
  obtain ⟨turns, hf⟩ := fetch_of_port_turn hfl hturn
  rw [step, hf] at h
  cases hd : decodeCommand bytes with
  | error e =>
    cases e with
    | noCommand => exact absurd (eq_nil_of_decodeCommand_noCommand hd) hne
    | illegalCommand | truncatedCommand => simp [portFetch, hport, hd] at h
  | ok r =>
    obtain ⟨i, rest⟩ := r
    by_cases hagent : i.issuer = .consumer
    · obtain rfl := eq_drain_of_issuer hagent
      rw [portFetch_of_command turns hport hd hagent rfl] at h
      exact ⟨rest, _, rfl, State.SameCore.of_update s _ _, ((exec_drain_next _ _).mp h).symm⟩
    · simp [portFetch, hport, hd, hagent] at h

/-- Settles O31: the step is a DRAIN, whose encoding is the byte 0x06 and whose frame is
`drainAll`'s. -/
theorem theConsumerOnlyDrains : Obligations.TheConsumerOnlyDrains := by
  intro s t bytes more hfl hturn hport hne h
  obtain ⟨rest, s', hd, hcore, rfl⟩ := step_of_consumer hfl hturn hport hne h
  obtain ⟨rfl, -⟩ := decodedBytesAreTheEncoding _ _ _ hd
  rw [hcore]
  exact ⟨rfl, rfl, rfl, rfl, rfl, rfl, rfl, rfl, rfl, rfl, rfl⟩

end Sys2Proof.Machine
end

section
/-! The checksum as a linear map of its accumulator and its words (41_checksum.md R121, R127, R128).
-/

namespace Sys2Proof.Machine

/-! ### Words from bytes -/

theorem append_toNat {m n : Nat} (x : BitVec m) (y : BitVec n) :
    (x ++ y).toNat = x.toNat * 2 ^ n + y.toNat := by
  rw [BitVec.toNat_append, ← Nat.shiftLeft_add_eq_or_of_lt y.isLt, Nat.shiftLeft_eq]

/-- `le32` puts its bytes side by side, the first one lowest. -/
theorem le32_eq_append (a b c d : Byte) : le32 a b c d = d ++ c ++ b ++ a := by
  apply BitVec.eq_of_toNat_eq
  change _ = BitVec.toNat (w := 8 + 8 + 8 + 8) (d ++ c ++ b ++ a)
  rw [le32_toNat, append_toNat, append_toNat, append_toNat]
  omega

theorem le32_xor (a b c d a' b' c' d' : Byte) :
    le32 (a ^^^ a') (b ^^^ b') (c ^^^ c') (d ^^^ d') = le32 a b c d ^^^ le32 a' b' c' d' := by
  simp only [le32_eq_append]
  change _ = (d ++ c ++ b ++ a ^^^ d' ++ c' ++ b' ++ a' : BitVec (8 + 8 + 8 + 8))
  rw [BitVec.xor_append, BitVec.xor_append, BitVec.xor_append]

theorem le32_inj {a b c d a' b' c' d' : Byte} (h : le32 a b c d = le32 a' b' c' d') :
    a = a' ∧ b = b' ∧ c = c' ∧ d = d' := by
  have hnat := congrArg BitVec.toNat h
  simp only [le32_toNat] at hnat
  have := a.isLt
  have := b.isLt
  have := c.isLt
  have := a'.isLt
  have := b'.isLt
  have := c'.isLt
  simp only [← BitVec.toNat_inj]
  omega

/-- XOR of two sequences of one length, word by word. -/
theorem cksWords_xorBytes : (s e : List Byte) → s.length = e.length →
    cksWords (xorBytes s e) = List.zipWith (fun v w => v ^^^ w) (cksWords s) (cksWords e)
  | [], [], _ | [_], [_], _ | [_, _], [_, _], _ | [_, _, _], [_, _, _], _ => rfl
  | a :: b :: c :: d :: s, a' :: b' :: c' :: d' :: e, h => by
    have hlen : s.length = e.length := by simpa using h
    rw [cksWords_cons, cksWords_cons, List.zipWith_cons_cons, ← cksWords_xorBytes s e hlen,
      ← le32_xor, ← cksWords_cons]
    rfl

/-! ### Linearity -/

/-- What an iteration adds to the shifted accumulator, by the bit shifted out. -/
def polyIf (carry : Bool) : Word32 := if carry then Config.poly else 0#32

theorem cksBit_eq (acc : Word32) : cksBit acc = (acc <<< 1) ^^^ polyIf acc.msb := by
  rw [cksBit, polyIf]
  split <;> simp

theorem polyIf_xor (p q : Bool) : polyIf (p ^^ q) = polyIf p ^^^ polyIf q := by
  cases p <;> cases q <;> rfl

theorem cksBit_xor (a b : Word32) : cksBit (a ^^^ b) = cksBit a ^^^ cksBit b := by
  rw [cksBit_eq, cksBit_eq, cksBit_eq, BitVec.msb_xor, BitVec.shiftLeft_xor_distrib, polyIf_xor]
  ac_rfl

theorem cksBits_xor (n : Nat) (a b : Word32) :
    cksBits n (a ^^^ b) = cksBits n a ^^^ cksBits n b := by
  induction n generalizing a b with
  | zero => rfl
  | succ n ih => rw [cksBits_succ, cksBits_succ, cksBits_succ, cksBit_xor, ih]

theorem cksWord_xor (a b v w : Word32) :
    cksWord (a ^^^ b) (v ^^^ w) = cksWord a v ^^^ cksWord b w := by
  rw [cksWord, cksWord, cksWord, ← cksBits_xor]
  congr 1
  ac_rfl

theorem foldl_cksWord_xor (vs ws : List Word32) (h : vs.length = ws.length) (a b : Word32) :
    (List.zipWith (fun v w => v ^^^ w) vs ws).foldl cksWord (a ^^^ b)
      = vs.foldl cksWord a ^^^ ws.foldl cksWord b := by
  induction vs generalizing ws a b with
  | nil =>
    obtain rfl : ws = [] := List.eq_nil_of_length_eq_zero h.symm
    rfl
  | cons v vs ih =>
    cases ws with
    | nil => cases h
    | cons w ws =>
      rw [List.zipWith_cons_cons, List.foldl_cons, List.foldl_cons, List.foldl_cons, cksWord_xor]
      exact ih ws (by simpa using h) _ _

/-- Settles O34: the words of the XOR are the XORs of the words, and a word's step is linear in
accumulator and word together. -/
theorem checksumIsAffine : Obligations.ChecksumIsAffine := by
  intro s e h
  rw [crc32, cksWords_xorBytes s e h, crc32, ← foldl_cksWord_xor _ _ _ Config.crcInit 0#32,
    BitVec.xor_zero]
  rw [cksWords_length, cksWords_length, h]

/-! ### Injectivity -/

/-- An iteration loses no bit: the bit shifted out comes back as the low bit of the polynomial. -/
theorem cksBit_eq_zero {a : Word32} (h : cksBit a = 0#32) : a = 0#32 := by
  rw [cksBit_eq, BitVec.xor_eq_zero_iff] at h
  cases hmsb : a.msb with
  | true =>
    have hlow := congrArg (BitVec.getLsbD · 0) h
    simp [hmsb, polyIf] at hlow
    exact absurd hlow (by decide)
  | false =>
    have hlt : 2 * a.toNat < 2 ^ 32 := BitVec.msb_eq_false_iff_two_mul_lt.mp hmsb
    have hshift := congrArg BitVec.toNat h
    rw [hmsb, polyIf, if_neg Bool.false_ne_true, BitVec.toNat_shiftLeft, Nat.shiftLeft_eq,
      BitVec.toNat_ofNat] at hshift
    apply BitVec.eq_of_toNat_eq
    rw [BitVec.toNat_ofNat]
    omega

theorem cksBit_injective {a b : Word32} (h : cksBit a = cksBit b) : a = b := by
  have hzero : cksBit (a ^^^ b) = 0#32 := by rw [cksBit_xor, h, BitVec.xor_self]
  exact BitVec.xor_eq_zero_iff.mp (cksBit_eq_zero hzero)

theorem cksBits_injective {n : Nat} {a b : Word32} (h : cksBits n a = cksBits n b) : a = b := by
  induction n generalizing a b with
  | zero => exact h
  | succ n ih => exact cksBit_injective (ih h)

theorem cksWord_injective {a b v w : Word32} (h : cksWord a v = cksWord b w) :
    a ^^^ v = b ^^^ w := cksBits_injective h

theorem foldl_cksWord_injective {a b : Word32} (ws : List Word32)
    (h : ws.foldl cksWord a = ws.foldl cksWord b) : a = b := by
  induction ws generalizing a b with
  | nil => exact h
  | cons w ws ih => exact (BitVec.xor_left_inj _).mp (cksWord_injective (ih h))

/-- The checksum goes on from one word and what follows it. -/
theorem crc32_append_word {before : List Byte} (hb : before.length % 4 = 0) (a b c d : Byte)
    (after : List Byte) : crc32 (before ++ [a, b, c, d] ++ after)
      = (cksWords after).foldl cksWord (cksWord (crc32 before) (le32 a b c d)) := by
  rw [List.append_assoc, crc32_append hb]
  simp

theorem crc32_ne_of_word_ne {before w w' : List Byte} (after : List Byte)
    (hb : before.length % 4 = 0) (hw : w.length = 4) (hw' : w'.length = 4) (hne : w ≠ w') :
    crc32 (before ++ w ++ after) ≠ crc32 (before ++ w' ++ after) := by
  match w, w', hw, hw' with
  | [a, b, c, d], [a', b', c', d'], _, _ =>
    intro h
    rw [crc32_append_word hb, crc32_append_word hb] at h
    have hword := (BitVec.xor_right_inj _).mp (cksWord_injective (foldl_cksWord_injective _ h))
    obtain ⟨rfl, rfl, rfl, rfl⟩ := le32_inj hword
    exact hne rfl

/-- A sequence around the word that starts at an index. -/
theorem take_word_drop (l : List Byte) (p : Nat) :
    l.take p ++ (l.drop p).take 4 ++ l.drop (p + 4) = l := by
  rw [List.append_assoc, ← List.drop_drop, List.take_append_drop, List.take_append_drop]

/-- Changing one byte changes the checksum. -/
theorem crc32_set_ne {l : List Byte} {k : Nat} {b : Byte} (hl : l.length % 4 = 0)
    (hk : k < l.length) (hb : b ≠ byteAt l k) : crc32 (l.set k b) ≠ crc32 l := by
  have hp : 4 * (k / 4) ≤ k := Nat.mul_div_le k 4
  have hk4 : k < 4 * (k / 4) + 4 := by omega
  have htake : (l.set k b).take (4 * (k / 4)) = l.take (4 * (k / 4)) :=
    List.take_set_of_le hp
  have hdrop : (l.set k b).drop (4 * (k / 4) + 4) = l.drop (4 * (k / 4) + 4) :=
    List.drop_set_of_lt hk4
  have hword : ((l.set k b).drop (4 * (k / 4))).take 4 ≠ (l.drop (4 * (k / 4))).take 4 := by
    intro h
    have hset : l.set k b = l := by
      rw [← take_word_drop (l.set k b) (4 * (k / 4)), htake, h, hdrop, take_word_drop]
    apply hb
    rw [← hset]
    simp [byteAt, hk]
  have hlen (w : List Byte) : ((w.drop (4 * (k / 4))).take 4).length = 4 ↔
      4 * (k / 4) + 4 ≤ w.length := by
    simp only [List.length_take, List.length_drop]
    omega
  have hne := crc32_ne_of_word_ne (before := l.take (4 * (k / 4))) (l.drop (4 * (k / 4) + 4))
    (by rw [List.length_take]; omega) ((hlen _).mpr (by rw [List.length_set]; omega))
    ((hlen l).mpr (by omega)) hword
  rwa [take_word_drop, ← htake, ← hdrop, take_word_drop] at hne

/-- Settles O35: a changed word changes the accumulator after it for good; a changed byte among the
checked ones changes its word, and leaves the CRC field as it was. -/
theorem aOneWordChangeIsDetected : Obligations.AOneWordChangeIsDetected := by
  refine ⟨fun before w w' after hb hw hw' hne => crc32_ne_of_word_ne after hb hw hw' hne,
    fun f k b hf hok hk hb => ?byte⟩
  case byte =>
    have hfield : crcField (f.set k b) = crcField f := by
      have hkeep (i : Nat) (hi : 20 ≤ i) : byteAt (f.set k b) i = byteAt f i := by
        rw [byteAt, byteAt, List.getD, List.getD, List.getElem?_set_ne (by omega)]
      simp only [crcField, hkeep 20 (by decide), hkeep 21 (by decide), hkeep 22 (by decide),
        hkeep 23 (by decide)]
    have hlen : (f.take 20).length = 20 := by simp [hf]
    have hne : crc32 ((f.take 20).set k b) ≠ crc32 (f.take 20) := by
      refine crc32_set_ne (by rw [hlen]) (by omega) ?_
      rwa [byteAt_take hk]
    rw [crcOk, beq_iff_eq] at hok
    rw [crcOk, beq_eq_false_iff_ne, hfield, ← hok, List.take_set]
    exact hne

end Sys2Proof.Machine
end

section
/-! The bit-serial work registers (10_state.md R33, 41_checksum.md R129; log 15): a tick that loads
a word, then one for each iteration. -/

namespace Sys2Proof.Machine

theorem cksTicks_add (s : List Byte) (m n : Nat) (r : CksWork) :
    cksTicks s (m + n) r = cksTicks s n (cksTicks s m r) := by
  induction m generalizing r with
  | zero => rw [Nat.zero_add, cksTicks]
  | succ m ih => rw [Nat.succ_add, cksTicks, ih, cksTicks]

/-- With no iteration left and a word to come, a tick loads the word. -/
theorem cksTick_load {s : List Byte} {k : Nat} {w : Word32} (hw : (cksWords s)[k]? = some w)
    (acc : Word32) : cksTick s ⟨acc, k, 0⟩ = ⟨acc ^^^ w, k, 32⟩ := by
  simp [cksTick, hw]

/-- With no iteration and no word left, a tick changes nothing. -/
theorem cksTick_idle {s : List Byte} {k : Nat} (hk : (cksWords s).length ≤ k) (acc : Word32) :
    cksTick s ⟨acc, k, 0⟩ = ⟨acc, k, 0⟩ := by
  simp [cksTick, hk]

theorem cksTicks_idle {s : List Byte} {k : Nat} (hk : (cksWords s).length ≤ k) (acc : Word32)
    (n : Nat) : cksTicks s n ⟨acc, k, 0⟩ = ⟨acc, k, 0⟩ := by
  induction n with
  | zero => rfl
  | succ n ih => rw [cksTicks, cksTick_idle hk, ih]

/-- The iterations left, a tick each, and on to the next word. -/
theorem cksTicks_bits (s : List Byte) (k n : Nat) (acc : Word32) :
    cksTicks s (n + 1) ⟨acc, k, n + 1⟩ = ⟨cksBits (n + 1) acc, k + 1, 0⟩ := by
  induction n generalizing acc with
  | zero => rfl
  | succ n ih =>
    have htick : cksTick s ⟨acc, k, n + 2⟩ = ⟨cksBit acc, k, n + 1⟩ := by simp [cksTick]
    rw [cksTicks, htick, ih, cksBits_succ (n + 1)]

/-- 33 ticks are one word. -/
theorem cksTicks_word {s : List Byte} {k : Nat} {w : Word32} (hw : (cksWords s)[k]? = some w)
    (acc : Word32) : cksTicks s 33 ⟨acc, k, 0⟩ = ⟨cksWord acc w, k + 1, 0⟩ := by
  rw [cksTicks, cksTick_load hw, cksTicks_bits, cksWord]

/-- After 33 ticks a word the registers hold the accumulator of the words so far. -/
theorem cksTicks_words (s : List Byte) {k : Nat} (hk : k ≤ (cksWords s).length) :
    cksTicks s (33 * k) cksStart = ⟨((cksWords s).take k).foldl cksWord Config.crcInit, k, 0⟩ := by
  induction k with
  | zero => rfl
  | succ k ih =>
    have hw : (cksWords s)[k]? = some (cksWords s)[k] := List.getElem?_eq_getElem hk
    rw [Nat.mul_succ, cksTicks_add, ih (by omega), cksTicks_word hw,
      List.take_succ_eq_append_getElem hk, List.foldl_append, List.foldl_cons, List.foldl_nil]

/-- Settles O36: 33 ticks a word reach the checksum, and every tick after them is idle. -/
theorem workRegistersReachTheChecksum : Obligations.WorkRegistersReachTheChecksum := by
  intro s n hn
  rw [← cksWords_length] at hn ⊢
  obtain ⟨m, rfl⟩ := Nat.exists_eq_add_of_le hn
  rw [cksTicks_add, cksTicks_words s le_rfl, List.take_length, cksTicks_idle le_rfl, crc32]

end Sys2Proof.Machine
end

section
/-! The frame FEEDFRAME makes (30_encoding.md R95): its check and its payload (42_converter.md
R157). -/

namespace Sys2Proof.Machine

theorem le16_bytes16 (u : Half) : le16 (u.extractLsb' 0 8) (u.extractLsb' 8 8) = u := by
  apply BitVec.eq_of_toNat_eq
  rw [le16_toNat, BitVec.extractLsb'_toNat, BitVec.extractLsb'_toNat]
  simp only [Nat.shiftRight_eq_div_pow]
  have := u.isLt
  omega

theorem le32_bytes32 (u : Word32) :
    le32 (u.extractLsb' 0 8) (u.extractLsb' 8 8) (u.extractLsb' 16 8) (u.extractLsb' 24 8) = u := by
  apply BitVec.eq_of_toNat_eq
  simp only [le32_toNat, BitVec.extractLsb'_toNat, Nat.shiftRight_eq_div_pow]
  have := u.isLt
  omega

/-- `int16` is the two's complement value. -/
theorem int16_eq_toInt (u : Half) : int16 u = u.toInt := by
  rw [int16, BitVec.toInt_eq_toNat_cond]
  have := u.isLt
  split <;> split <;> omega

/-- Twenty bytes that start with the marker and carry the type, with their checksum behind them, are
a valid frame. -/
theorem classify_of_head {head : List Byte} (hlen : head.length = 20)
    (hm : isMarker head = true) (ht : msgType head = Config.supportedType) :
    classify (head ++ bytes32 (crc32 head)) = .accept := by
  have hkeep (i : Nat) (hi : i < 20) : byteAt (head ++ bytes32 (crc32 head)) i = byteAt head i :=
    List.getD_append _ _ _ _ (by omega)
  have htail (i : Nat) : byteAt (head ++ bytes32 (crc32 head)) (20 + i)
      = byteAt (bytes32 (crc32 head)) i := by
    rw [byteAt, List.getD_append_right _ _ _ _ (by omega), hlen, Nat.add_sub_cancel_left]
    rfl
  have hfield : crcField (head ++ bytes32 (crc32 head)) = crc32 head := by
    rw [crcField, htail 0, htail 1, htail 2, htail 3]
    exact le32_bytes32 (crc32 head)
  refine (classify_eq_accept_iff _).mpr ⟨?_, ?_, ?_⟩
  · rw [isMarker_iff, hkeep 0 (by decide), hkeep 1 (by decide)]
    exact (isMarker_iff head).mp hm
  · rw [msgType, hkeep 4 (by decide)]
    exact ht
  · rw [crcOk, beq_iff_eq, hfield, List.take_left' hlen]

/-- Settles O39: the head carries marker and type and its own checksum follows it; the payload's
fields are read back from their bytes. -/
theorem aConstructedFrameDecodesToItsFields : Obligations.AConstructedFrameDecodesToItsFields := by
  intro ver seq h vv roll pitch yaw valid p12 p13 pad ts f
  refine ⟨rfl, classify_of_head rfl rfl rfl, (cnv_of_length rfl ts).trans ?payload⟩
  case payload =>
    simp only [← int16_eq_toInt]
    rw [← le16_bytes16 h, ← le16_bytes16 vv, ← le16_bytes16 roll, ← le16_bytes16 pitch,
      ← le16_bytes16 yaw]
    rfl

end Sys2Proof.Machine
end

section
/-! Fair runs (92_eei_decisions.md D22): what holds until something happens for the first time, and
what fairness forbids to hold for ever. -/

namespace Sys2Proof.Machine

/-- What every step keeps unless `P` happens holds up to the first `P`, or for ever without one. -/
theorem first_or_forever {P Q : Nat → Prop} {n : Nat} (hn : Q n)
    (hstep : ∀ j, n ≤ j → Q j → P j ∨ Q (j + 1)) :
    (∃ k, n ≤ k ∧ P k ∧ (∀ j, n ≤ j → j ≤ k → Q j) ∧ ∀ j, n ≤ j → j < k → ¬ P j) ∨
    ∀ j, n ≤ j → Q j ∧ ¬ P j := by
  classical
  have upTo (k : Nat) (hno : ∀ j, n ≤ j → j < k → ¬ P j) (hk : n ≤ k) : Q k := by
    induction k, hk using Nat.le_induction with
    | base => exact hn
    | succ k hk ih =>
      have hQ := ih fun j hj hlt => hno j hj (by omega)
      exact (hstep k hk hQ).resolve_left (hno k hk (by omega))
  by_cases hex : ∃ k, n ≤ k ∧ P k
  · left
    obtain ⟨hk, hP⟩ := Nat.find_spec hex
    have hmin (j : Nat) (hj : n ≤ j) (hlt : j < Nat.find hex) : ¬ P j :=
      fun h => Nat.find_min hex hlt ⟨hj, h⟩
    exact ⟨Nat.find hex, hk, hP, fun j hj hle => upTo j (fun i hi hlt => hmin i hi (by omega)) hj,
      hmin⟩
  · right
    have hno (j : Nat) (hj : n ≤ j) : ¬ P j := fun h => hex ⟨j, hj, h⟩
    exact fun j hj => ⟨upTo j (fun i hi _ => hno i hi) hj, hno j hj⟩

/-! ### A session at work -/

/-- With a window buffered a session goes on without new bytes, unless a RESET ends it. -/
theorem exec_busy {i : Instr} {s t : State} (hp : s.pstate = .run) (hlen : 24 ≤ s.buf.length)
    (h : exec i s = .next t) :
    t.buf = [] ∨ (t.pstate = .run ∧ t.buf.length ≤ s.buf.length) := by
  have hnoread : ¬ s.readEnabled = true := by
    rw [State.readEnabled_iff]
    omega
  have hnostop : ¬ s.stopEnabled = true := by
    rw [State.stopEnabled_iff]
    omega
  rcases exec_cases h with ⟨-, rfl⟩ | ⟨-, hr, -⟩ | ⟨-, rfl⟩ | ⟨c, -, ⟨hr, -⟩ | ⟨-, rfl⟩⟩ |
    ⟨-, hr, -⟩ | ⟨-, rfl⟩ | ⟨-, rfl⟩ | ⟨d, -, rfl⟩ | ⟨p, -, -, rfl⟩ | ⟨-, hr, -⟩ |
    ⟨-, m, -, -, rfl⟩ | ⟨-, hsync⟩
  · exact .inl rfl
  · exact absurd hp hr
  · exact .inr ⟨hp, le_rfl⟩
  · exact absurd hr hnoread
  · exact .inr ⟨hp, le_rfl⟩
  · exact absurd hr hnoread
  · exact .inr ⟨hp, le_rfl⟩
  · exact .inr ⟨hp, le_rfl⟩
  · exact .inr ⟨hp, le_rfl⟩
  · exact .inr ⟨hp, le_rfl⟩
  · exact absurd hr hnostop
  · exact .inr ⟨by simpa using hp, by simp⟩
  · exact .inr ⟨exec_syncStep_pstate hsync, (exec_syncStep_length_lt hsync).le⟩

theorem Run.busy {r : Nat → State} (h : Run r) {n : Nat} (hp : (r n).pstate = .run)
    (hlen : 24 ≤ (r n).buf.length) : (r (n + 1)).buf.length < 24 ∨
      ((r (n + 1)).pstate = .run ∧ (r (n + 1)).buf.length ≤ (r n).buf.length) := by
  rcases h.next_cases n with ⟨i, s, t, -, hs, hexec, ht⟩ | hs
  · obtain ⟨hsp, -, -, hsb, -⟩ := hs.fields
    obtain ⟨htp, -, -, htb, -⟩ := ht.fields
    rw [htp, htb, ← hsb]
    rcases exec_busy (hsp.trans hp) (hsb ▸ hlen) hexec with hempty | hgo
    · left
      simp [hempty]
    · exact .inr hgo
  · obtain ⟨hsp, -, -, hsb, -⟩ := hs.fields
    rw [hsp, hsb]
    exact .inr ⟨hp, le_rfl⟩

/-- From a session with L bytes: while a window is buffered SYNC_STEP stays enabled, so it is taken,
and fewer than L bytes are left. -/
theorem FairRun.quiescent_again {r : Nat → State} (h : FairRun r) (L n : Nat)
    (hp : (r n).pstate = .run) (hL : (r n).buf.length ≤ L) :
    ∃ m, n ≤ m ∧ (r m).buf.length < 24 := by
  obtain ⟨hrun, hfair, -, -⟩ := id h
  induction L using Nat.strong_induction_on generalizing n with
  | _ L ih =>
    have hcases := first_or_forever (P := fun j => (r j).buf.length < 24)
      (Q := fun j => (r j).buf.length < 24 ∨ ((r j).pstate = .run ∧ (r j).buf.length ≤ L))
      (n := n) (.inr ⟨hp, hL⟩) fun j _ hj => by
        by_cases hq : (r j).buf.length < 24
        · exact .inl hq
        · obtain ⟨hpj, hLj⟩ := hj.resolve_left hq
          rcases hrun.busy hpj (by omega) with hq' | ⟨hp', hle⟩
          · exact .inr (.inl hq')
          · exact .inr (.inr ⟨hp', hle.trans hLj⟩)
    rcases hcases with ⟨k, hk, hq, -⟩ | hforever
    · exact ⟨k, hk, hq⟩
    · have hbusy (j : Nat) (hj : n ≤ j) :
          (r j).pstate = .run ∧ (r j).buf.length ≤ L ∧ 24 ≤ (r j).buf.length := by
        obtain ⟨hQ, hno⟩ := hforever j hj
        obtain ⟨hpj, hLj⟩ := hQ.resolve_left hno
        exact ⟨hpj, hLj, by omega⟩
      obtain ⟨m, hm, htakes⟩ := hfair n fun j hj => by
        obtain ⟨hpj, -, hlen⟩ := hbusy j hj
        exact (State.syncEnabled_iff _).mpr ⟨hpj, hlen⟩
      obtain ⟨s, t, hs, hexec, ht⟩ := hrun.next_of_takes htakes
      obtain ⟨-, -, -, hsb, -⟩ := hs.fields
      obtain ⟨-, -, -, htb, -⟩ := ht.fields
      have hlt := exec_syncStep_length_lt hexec
      rw [hsb, ← htb] at hlt
      obtain ⟨-, hLm, -⟩ := hbusy m hm
      obtain ⟨hp', -⟩ := hbusy (m + 1) (by omega)
      obtain ⟨k, hk, hq⟩ := ih _ (hlt.trans_le hLm) (m + 1) hp' le_rfl
      exact ⟨k, by omega, hq⟩

/-- Settles O57: by the number of bytes buffered. -/
theorem fairRunsBecomeQuiescentAgain : Obligations.FairRunsBecomeQuiescentAgain :=
  fun _ h n hp => h.quiescent_again _ n hp le_rfl

/-! ### A stopped session -/

/-- A stopped session takes no bytes and goes on, up to OBSERVE_STOP or a RESET. -/
theorem exec_stopped {i : Instr} {s t : State} (hp : s.pstate = .run) (hstop : s.stop = true)
    (h : exec i s = .next t) :
    (i = .observeStop ∨ i = .reset) ∨
      (t.pstate = .run ∧ t.stop = true ∧ t.buf.length ≤ s.buf.length) := by
  have hnoread : ¬ s.readEnabled = true := by simp [hstop]
  rcases exec_cases h with ⟨hi, -⟩ | ⟨-, hr, -⟩ | ⟨-, rfl⟩ | ⟨c, -, ⟨hr, -⟩ | ⟨-, rfl⟩⟩ |
    ⟨-, hr, -⟩ | ⟨-, rfl⟩ | ⟨-, rfl⟩ | ⟨d, -, rfl⟩ | ⟨p, -, -, rfl⟩ | ⟨hi, -, -⟩ |
    ⟨-, m, -, -, rfl⟩ | ⟨-, hsync⟩
  · exact .inl (.inr hi)
  · exact absurd hp hr
  · exact .inr ⟨hp, rfl, le_rfl⟩
  · exact absurd hr hnoread
  · exact .inr ⟨hp, hstop, le_rfl⟩
  · exact absurd hr hnoread
  · exact .inr ⟨hp, hstop, le_rfl⟩
  · exact .inr ⟨hp, hstop, le_rfl⟩
  · exact .inr ⟨hp, hstop, le_rfl⟩
  · exact .inr ⟨hp, hstop, le_rfl⟩
  · exact .inl (.inl hi)
  · exact .inr ⟨by simpa using hp, by simpa using hstop, by simp⟩
  · exact .inr ⟨exec_syncStep_pstate hsync, (exec_syncStep_stop hsync).trans hstop,
      (exec_syncStep_length_lt hsync).le⟩

theorem Run.stopped {r : Nat → State} (h : Run r) {n : Nat} (hp : (r n).pstate = .run)
    (hstop : (r n).stop = true) :
    (Takes .observeStop (r n) ∨ Takes .reset (r n)) ∨
      ((r (n + 1)).pstate = .run ∧ (r (n + 1)).stop = true ∧
        (r (n + 1)).buf.length ≤ (r n).buf.length) := by
  rcases h.next_cases n with ⟨i, s, t, hf, hs, hexec, ht⟩ | hs
  · obtain ⟨hsp, hss, -, hsb, -⟩ := hs.fields
    obtain ⟨htp, hts, -, htb, -⟩ := ht.fields
    rw [htp, hts, htb, ← hsb]
    rcases exec_stopped (hsp.trans hp) (hss.trans hstop) hexec with (rfl | rfl) | hgo
    · exact .inl (.inl ⟨s, hf⟩)
    · exact .inl (.inr ⟨s, hf⟩)
    · exact .inr hgo
  · obtain ⟨hsp, hss, -, hsb, -⟩ := hs.fields
    rw [hsp, hss, hsb]
    exact .inr ⟨hp, hstop, le_rfl⟩

/-- A stopped session does not go on for ever: it becomes quiescent, and then OBSERVE_STOP stays
enabled. -/
theorem FairRun.stop_ends {r : Nat → State} (h : FairRun r) {n : Nat}
    (hgo : ∀ j, n ≤ j → ((r j).pstate = .run ∧ (r j).stop = true) ∧
      ¬ (Takes .observeStop (r j) ∨ Takes .reset (r j))) : False := by
  obtain ⟨hrun, -, hfair, -⟩ := id h
  obtain ⟨⟨hp, -⟩, -⟩ := hgo n le_rfl
  obtain ⟨m, hm, hq⟩ := h.quiescent_again _ n hp le_rfl
  have hquiet (j : Nat) (hj : m ≤ j) : (r j).buf.length < 24 := by
    induction j, hj using Nat.le_induction with
    | base => exact hq
    | succ j hj ih =>
      obtain ⟨⟨hpj, hsj⟩, hno⟩ := hgo j (by omega)
      obtain ⟨-, -, hle⟩ := (hrun.stopped hpj hsj).resolve_left hno
      omega
  obtain ⟨k, hk, htakes⟩ := hfair m fun j hj => by
    obtain ⟨⟨hpj, hsj⟩, -⟩ := hgo j (by omega)
    exact (State.stopEnabled_iff _).mpr ⟨hpj, hsj, hquiet j hj⟩
  obtain ⟨-, hno⟩ := hgo k (by omega)
  exact hno (.inl htakes)

/-- Settles O58: a stopped session goes on up to the first OBSERVE_STOP or RESET, and there is one.
-/
theorem fairRunsObserveTheStop : Obligations.FairRunsObserveTheStop := by
  intro r h n hp hstop
  have hcases := first_or_forever (P := fun j => Takes .observeStop (r j) ∨ Takes .reset (r j))
    (Q := fun j => (r j).pstate = .run ∧ (r j).stop = true) (n := n) ⟨hp, hstop⟩
    fun j _ ⟨hpj, hsj⟩ => (h.1.stopped hpj hsj).imp_right fun ⟨hp', hs', _⟩ => ⟨hp', hs'⟩
  rcases hcases with ⟨k, hk, htakes, hgo, -⟩ | hforever
  · refine ⟨k, hk, hgo, htakes.imp_left fun hobs => ⟨hobs, ?_⟩⟩
    obtain ⟨s, t, hs, hexec, ht⟩ := h.1.next_of_takes hobs
    obtain ⟨-, rfl⟩ := (exec_observeStop_next s t).mp hexec
    obtain ⟨-, -, -, -, -, -, -, hsl, -⟩ := hs.fields
    obtain ⟨htp, -, -, -, -, -, -, htl, -⟩ := ht.fields
    rw [htp, htl, ← hsl]
    exact ⟨rfl, rfl⟩
  · exact absurd hforever fun hgo => h.stop_ends hgo

/-! ### A queued Sample -/

/-- A full queue under DROP_OLDEST loses its head, a Sample, to a new one. -/
def State.DropsOldest (m : Sample) (s t : State) : Prop :=
  s.cfgPolicy = .dropOldest ∧ s.cfgCap ≤ s.q.length ∧
    ∃ rest new events, s.q = m :: rest ∧ t.q = rest ++ [new] ∧
      t.evlog = s.evlog ++ events ++ [.chDropOldest m.seq]

/-- A queued Sample stays through a PUSH, unless it is the oldest of a full queue and is dropped. -/
theorem State.pushSample_keeps {s : State} {m : Sample} (x : Sample) (hm : m ∈ s.q) :
    s.DropsOldest m (s.pushSample x) ∨ m ∈ (s.pushSample x).q := by
  rcases State.pushSample_cases x s with
    ⟨-, e⟩ | ⟨hfull, hp, d, rest, hq, e⟩ | ⟨-, -, e⟩ | ⟨-, -, e⟩ <;> rw [e]
  · exact .inr (List.mem_append_left _ hm)
  · rw [hq] at hm
    rcases List.mem_cons.mp hm with rfl | hm
    · exact .inl ⟨hp, hfull, rest, x, [], hq, rfl, by simp⟩
    · exact .inr (List.mem_append_left _ hm)
  · exact .inr hm
  · exact .inr hm

theorem exec_syncStep_keeps {s t : State} {m : Sample} (hm : m ∈ s.q)
    (h : exec .syncStep s = .next t) : s.DropsOldest m t ∨ m ∈ t.q := by
  obtain ⟨-, ⟨-, rfl⟩ | ⟨-, rfl⟩ | ⟨-, rfl⟩ | ⟨-, -, rfl⟩⟩ := exec_syncStep_cases h
  case inr.inr.inr =>
    refine (State.pushSample_keeps (s := s.accepting _) _ hm).imp_left ?_
    rintro ⟨hp, hfull, rest, new, events, hq, htq, hlog⟩
    exact ⟨hp, hfull, rest, new, .accept (seqField (payload (s.buf.take 24))) :: events, hq, htq,
      hlog.trans (by simp [State.accepting])⟩
  all_goals exact .inr hm

/-- A queued Sample leaves the queue by a DRAIN, a RESET or its own drop. -/
theorem exec_keeps_queued {i : Instr} {s t : State} {m : Sample} (hm : m ∈ s.q)
    (h : exec i s = .next t) :
    (i = .drain ∨ i = .reset ∨ s.DropsOldest m t) ∨ m ∈ t.q := by
  rcases exec_cases h with ⟨hi, -⟩ | ⟨-, -, rfl⟩ | ⟨-, rfl⟩ | ⟨c, -, ⟨-, rfl⟩ | ⟨-, rfl⟩⟩ |
    ⟨-, -, rfl⟩ | ⟨hi, -⟩ | ⟨-, rfl⟩ | ⟨d, -, rfl⟩ | ⟨p, -, -, rfl⟩ | ⟨-, -, rfl⟩ |
    ⟨-, x, -, -, rfl⟩ | ⟨-, hsync⟩
  · exact .inl (.inr (.inl hi))
  · exact .inr hm
  · exact .inr hm
  · exact .inr hm
  · exact .inr hm
  · exact .inr hm
  · exact .inl (.inl hi)
  · exact .inr hm
  · exact .inr hm
  · exact .inr hm
  · exact .inr hm
  · exact (State.pushSample_keeps (s := s.unstage) x hm).imp_left fun hd => .inr (.inr hd)
  · exact (exec_syncStep_keeps hm hsync).imp_left fun hd => .inr (.inr hd)

theorem Run.keeps_queued {r : Nat → State} (h : Run r) {n : Nat} {m : Sample}
    (hm : m ∈ (r n).q) :
    (Takes .drain (r n) ∨ Takes .reset (r n) ∨ (r n).DropsOldest m (r (n + 1))) ∨
      m ∈ (r (n + 1)).q := by
  rcases h.next_cases n with ⟨i, s, t, hf, hs, hexec, ht⟩ | hs
  · obtain ⟨-, -, -, -, hsq, hsc, hsp, hsl, -⟩ := hs.fields
    obtain ⟨-, -, -, -, htq, -, -, htl, -⟩ := ht.fields
    rw [State.DropsOldest, htq, htl, ← hsq, ← hsc, ← hsp, ← hsl]
    rcases exec_keeps_queued (hsq ▸ hm) hexec with (rfl | rfl | hd) | hm'
    · exact .inl (.inl ⟨s, hf⟩)
    · exact .inl (.inr (.inl ⟨s, hf⟩))
    · exact .inl (.inr (.inr hd))
    · exact .inr hm'
  · obtain ⟨-, -, -, -, hsq, -⟩ := hs.fields
    rw [hsq]
    exact .inr hm

/-- Settles O59: a queued Sample stays up to the first DRAIN, RESET or drop of it, and a DRAIN is
taken again and again. -/
theorem fairRunsDrainWhatIsQueued : Obligations.FairRunsDrainWhatIsQueued := by
  intro r h n m hm
  have hcases := first_or_forever (P := fun j =>
      Takes .drain (r j) ∨ Takes .reset (r j) ∨ (r j).DropsOldest m (r (j + 1)))
    (Q := fun j => m ∈ (r j).q) (n := n) hm fun j _ hj => h.1.keeps_queued hj
  rcases hcases with ⟨k, hk, hend, hstays, hbefore⟩ | hforever
  · refine ⟨k, hk, fun j hj hlt => ⟨hstays j hj hlt.le, fun hd => hbefore j hj hlt (.inl hd),
      fun hr => hbefore j hj hlt (.inr (.inl hr))⟩, hstays k hk le_rfl, ?_⟩
    rcases hend with hdrain | hreset | hdrop
    · left
      obtain ⟨s, t, hs, hexec, ht⟩ := h.1.next_of_takes hdrain
      obtain rfl := (exec_drain_next s t).mp hexec
      obtain ⟨-, -, -, -, hsq, -, -, -, -, -, hsr⟩ := hs.fields
      obtain ⟨-, -, -, -, htq, -, -, -, -, -, htr⟩ := ht.fields
      refine ⟨hdrain, htq, ?_⟩
      rw [State.drainedSamples, htr, State.drainAll_results, hsr, hsq]
      simp [State.drainedSamples, Result.drained]
    · exact .inr (.inr hreset)
    · exact .inr (.inl hdrop)
  · obtain ⟨k, hk, hdrain⟩ := h.drain_again n
    obtain ⟨-, hno⟩ := hforever k hk
    exact absurd (.inl hdrain) hno

end Sys2Proof.Machine
end

section
/-! Binary64 rounding (00_scope.md R11). A finite value is told by its sign and its magnitude bits,
exponent and fraction read as one number; magnitudes grow strictly with those bits. So the two
values around a number have bits one apart, and every other value lies beyond one of the two. -/

namespace Sys2Proof.Machine

/-! ### Magnitude bits -/

/-- The magnitude, in units of 2^-1074, of the value with these magnitude bits. -/
def bitsMag (m : Nat) : Nat :=
  if m / 2 ^ 52 = 0 then m % 2 ^ 52 else (2 ^ 52 + m % 2 ^ 52) * 2 ^ (m / 2 ^ 52 - 1)

theorem f64Mag_eq (x : Binary64) : f64Mag x = bitsMag (x.toNat % 2 ^ 63) := by
  have hexp : f64Exp x = x.toNat % 2 ^ 63 / 2 ^ 52 := by
    rw [f64Exp]
    omega
  have hfrac : f64Frac x = x.toNat % 2 ^ 63 % 2 ^ 52 := by
    rw [f64Frac]
    omega
  rw [f64Mag, bitsMag, hexp, hfrac]

theorem f64Finite_iff (x : Binary64) : f64Finite x = true ↔ x.toNat % 2 ^ 63 < 2047 * 2 ^ 52 := by
  rw [f64Finite, decide_eq_true_iff, f64Exp]
  omega

theorem f64Frac_even_iff (x : Binary64) : f64Frac x % 2 = 0 ↔ x.toNat % 2 ^ 63 % 2 = 0 := by
  rw [f64Frac]
  omega

/-- With exponent and significand in place of the fields: 53 bits, or fewer at the lowest exponent.
The significand 2^53 carries into the next exponent. -/
theorem bitsMag_eq {e q : Nat} (hq : q ≤ 2 ^ 53) (he : e = 0 ∨ 2 ^ 52 ≤ q) :
    bitsMag (e * 2 ^ 52 + q) = q * 2 ^ e := by
  rcases lt_or_ge q (2 ^ 52) with hlow | hhigh
  · obtain rfl : e = 0 := by omega
    rw [bitsMag, if_pos (by omega)]
    omega
  rcases hq.lt_or_eq with hlt | rfl
  · have hdiv : (e * 2 ^ 52 + q) / 2 ^ 52 = e + 1 := by omega
    have hmod : (e * 2 ^ 52 + q) % 2 ^ 52 = q - 2 ^ 52 := by omega
    rw [bitsMag, hdiv, hmod, if_neg (by omega), Nat.add_sub_cancel, Nat.add_sub_cancel' hhigh]
  · have hdiv : (e * 2 ^ 52 + 2 ^ 53) / 2 ^ 52 = e + 2 := by omega
    have hmod : (e * 2 ^ 52 + 2 ^ 53) % 2 ^ 52 = 0 := by omega
    rw [bitsMag, hdiv, hmod, if_neg (by omega), Nat.add_zero, ← pow_add, ← pow_add]
    rw [show 52 + (e + 2 - 1) = 53 + e by omega]

/-- Any magnitude bits as exponent and significand. -/
theorem exists_exponent_significand (m : Nat) :
    ∃ e q, m = e * 2 ^ 52 + q ∧ q < 2 ^ 53 ∧ (e = 0 ∨ 2 ^ 52 ≤ q) := by
  rcases Nat.eq_zero_or_pos (m / 2 ^ 52) with h | h
  · exact ⟨0, m, by omega, by omega, .inl rfl⟩
  · exact ⟨m / 2 ^ 52 - 1, m % 2 ^ 52 + 2 ^ 52, by omega, by omega, .inr (by omega)⟩

theorem bitsMag_strictMono : StrictMono bitsMag := by
  refine strictMono_nat_of_lt_succ fun m => ?_
  obtain ⟨e, q, rfl, hq, he⟩ := exists_exponent_significand m
  rw [Nat.add_assoc, bitsMag_eq hq.le he, bitsMag_eq (q := q + 1) (by omega) (by omega)]
  exact Nat.mul_lt_mul_of_pos_right (Nat.lt_succ_self q) (by positivity)

/-! ### The rounded bits -/

/-- The magnitude bits `roundMagnitude` takes below those of infinity. -/
def roundBits (n d : Nat) : Nat :=
  roundExponent n d * 2 ^ 52 + roundQuotient n (d * 2 ^ roundExponent n d)

theorem roundMagnitude_eq (n d : Nat) : roundMagnitude n d = min (roundBits n d) (2047 * 2 ^ 52) :=
  rfl

/-- The rounded quotient is the quotient when the remainder is at most half, the next one when it is
at least half, and an even one when it is half. -/
theorem roundQuotient_cases (n d : Nat) :
    (roundQuotient n d = n / d ∧ 2 * (n % d) ≤ d ∧ (2 * (n % d) = d → n / d % 2 = 0)) ∨
    (roundQuotient n d = n / d + 1 ∧ d ≤ 2 * (n % d) ∧
      (2 * (n % d) = d → (n / d + 1) % 2 = 0)) := by
  unfold roundQuotient
  split_ifs <;> omega

/-- The quotient at the rounding exponent has 53 bits, or fewer at the lowest exponent. -/
theorem roundExponent_spec (n d : Nat) :
    n / (d * 2 ^ roundExponent n d) < 2 ^ 53 ∧
    (roundExponent n d = 0 ∨ 2 ^ 52 ≤ n / (d * 2 ^ roundExponent n d)) := by
  rw [← Nat.div_div_eq_div_mul, roundExponent]
  generalize n / d = m
  have hlt : m < 2 ^ (Nat.log2 m + 1) := Nat.lt_log2_self
  rcases Nat.lt_or_ge (Nat.log2 m) 53 with hlow | hhigh
  · have he : Nat.log2 m - 52 = 0 := by omega
    rw [he, pow_zero, Nat.div_one]
    exact ⟨hlt.trans_le (Nat.pow_le_pow_right (by decide) (by omega)), .inl rfl⟩
  · have hm : m ≠ 0 := by
      rintro rfl
      simp at hhigh
    have hle : 2 ^ Nat.log2 m ≤ m := Nat.log2_self_le hm
    have hsplit (k : Nat) : 2 ^ (k + 52) * 2 ^ (Nat.log2 m - 52) = 2 ^ (Nat.log2 m + k) := by
      rw [← pow_add]
      congr 1
      omega
    refine ⟨(Nat.div_lt_iff_lt_mul (by positivity)).mpr ?_, .inr ?_⟩
    · exact (hsplit 1).symm ▸ hlt
    · exact (Nat.le_div_iff_mul_le (by positivity)).mpr ((hsplit 0).symm ▸ hle)

/-- The bits below the number n / d, its remainder over them, and the rounded bits: those or the
next ones, by the remainder, even when it is half. -/
theorem roundBits_cases {n d : Nat} (hd : 0 < d) :
    ∃ m gap rem, bitsMag m * d + rem = n ∧ bitsMag (m + 1) * d = bitsMag m * d + gap ∧ rem < gap ∧
      ((roundBits n d = m ∧ 2 * rem ≤ gap ∧ (2 * rem = gap → m % 2 = 0)) ∨
       (roundBits n d = m + 1 ∧ gap ≤ 2 * rem ∧ (2 * rem = gap → (m + 1) % 2 = 0))) := by
  obtain ⟨hk, he⟩ := roundExponent_spec n d
  have hcases := roundQuotient_cases n (d * 2 ^ roundExponent n d)
  rw [roundBits]
  generalize roundExponent n d = e at *
  have hgap : 0 < d * 2 ^ e := by positivity
  have hmag := bitsMag_eq hk.le he
  have hnext := bitsMag_eq (e := e) (q := n / (d * 2 ^ e) + 1) (by omega) (by omega)
  refine ⟨e * 2 ^ 52 + n / (d * 2 ^ e), d * 2 ^ e, n % (d * 2 ^ e), ?_, ?_, Nat.mod_lt _ hgap, ?_⟩
  · rw [hmag]
    have hdiv := Nat.div_add_mod n (d * 2 ^ e)
    calc n / (d * 2 ^ e) * 2 ^ e * d + n % (d * 2 ^ e)
        = d * 2 ^ e * (n / (d * 2 ^ e)) + n % (d * 2 ^ e) := by ring
      _ = n := hdiv
  · rw [hmag, Nat.add_assoc, hnext]
    ring
  · omega

/-- The rounded bits are nearest to the number, and even on a tie. -/
theorem roundBits_nearest {n d : Nat} (hd : 0 < d) (b : Nat) :
    |((bitsMag (roundBits n d) * d : Nat) : Int) - n| ≤ |((bitsMag b * d : Nat) : Int) - n| ∧
    (|((bitsMag (roundBits n d) * d : Nat) : Int) - n| = |((bitsMag b * d : Nat) : Int) - n| →
      bitsMag b ≠ bitsMag (roundBits n d) → roundBits n d % 2 = 0) := by
  obtain ⟨m, gap, rem, hn, hgap, hrem, hround⟩ := roundBits_cases (n := n) hd
  have hside : bitsMag b * d ≤ bitsMag m * d ∨ bitsMag (m + 1) * d ≤ bitsMag b * d := by
    rcases Nat.lt_or_ge m b with hb | hb
    · exact .inr (Nat.mul_le_mul_right d (bitsMag_strictMono.monotone hb))
    · exact .inl (Nat.mul_le_mul_right d (bitsMag_strictMono.monotone hb))
  have hne : bitsMag b ≠ bitsMag (roundBits n d) →
      bitsMag b * d ≠ bitsMag (roundBits n d) * d :=
    fun h h' => h (Nat.eq_of_mul_eq_mul_right hd h')
  simp only [Int.abs_eq_natAbs]
  rcases hround with ⟨hr, hhalf, heven⟩ | ⟨hr, hhalf, heven⟩ <;> rw [hr] at hne ⊢
  · refine ⟨by omega, fun htie hb => heven ?_⟩
    have := hne hb
    omega
  · refine ⟨by omega, fun htie hb => heven ?_⟩
    have := hne hb
    omega

/-- A number no larger than a finite value of at most these bits rounds to at most these bits. -/
theorem roundBits_le {n d b : Nat} (hd : 0 < d) (h : n ≤ bitsMag b * d) : roundBits n d ≤ b := by
  obtain ⟨m, gap, rem, hn, hgap, hrem, hround⟩ := roundBits_cases (n := n) hd
  have hmb : m ≤ b := by
    refine bitsMag_strictMono.le_iff_le.mp (Nat.le_of_mul_le_mul_right ?_ hd)
    omega
  rcases hmb.lt_or_eq with hlt | rfl
  · omega
  · omega

/-! ### The rounded value -/

@[simp] theorem f64Round_toNat (neg : Bool) (n d : Nat) :
    (f64Round neg n d).toNat = (if neg then 2 ^ 63 else 0) + roundMagnitude n d := by
  have hle : roundMagnitude n d ≤ 2047 * 2 ^ 52 := min_le_right _ _
  rw [f64Round, BitVec.toNat_ofNat]
  exact Nat.mod_eq_of_lt (by split <;> omega)

theorem f64Round_bits (neg : Bool) (n d : Nat) :
    (f64Round neg n d).toNat % 2 ^ 63 = roundMagnitude n d := by
  have hle : roundMagnitude n d ≤ 2047 * 2 ^ 52 := min_le_right _ _
  rw [f64Round_toNat]
  split <;> omega

theorem f64Round_msb (neg : Bool) (n d : Nat) : (f64Round neg n d).msb = neg := by
  have hle : roundMagnitude n d ≤ 2047 * 2 ^ 52 := min_le_right _ _
  rw [BitVec.msb_eq_decide, f64Round_toNat]
  cases neg
  · simp
    omega
  · simp

theorem f64Round_finite_iff (neg : Bool) (n d : Nat) :
    f64Finite (f64Round neg n d) = true ↔ roundBits n d < 2047 * 2 ^ 52 := by
  rw [f64Finite_iff, f64Round_bits, roundMagnitude_eq]
  omega

/-- A finite rounded value has the rounded bits. -/
theorem f64Round_bits_of_finite {neg : Bool} {n d : Nat}
    (h : f64Finite (f64Round neg n d) = true) :
    (f64Round neg n d).toNat % 2 ^ 63 = roundBits n d := by
  rw [f64Round_bits, roundMagnitude_eq]
  exact min_eq_left ((f64Round_finite_iff neg n d).mp h).le

/-- A number no larger than a finite value's magnitude rounds to a finite one no larger. -/
theorem f64Round_le {n d : Nat} {y : Binary64} (neg : Bool) (hd : 0 < d) (hy : f64Finite y = true)
    (h : n ≤ f64Mag y * d) :
    f64Finite (f64Round neg n d) = true ∧ f64Mag (f64Round neg n d) ≤ f64Mag y := by
  rw [f64Mag_eq y] at h
  have hle := roundBits_le hd h
  have hfin : f64Finite (f64Round neg n d) = true :=
    (f64Round_finite_iff neg n d).mpr (hle.trans_lt ((f64Finite_iff y).mp hy))
  refine ⟨hfin, ?_⟩
  rw [f64Mag_eq, f64Mag_eq, f64Round_bits_of_finite hfin]
  exact bitsMag_strictMono.monotone hle

theorem f64Round_finite {n d : Nat} (neg : Bool) (hd : 0 < d) (h : n ≤ d * f64MaxMag) :
    f64Finite (f64Round neg n d) = true :=
  (f64Round_le neg hd rfl (h.trans_eq (Nat.mul_comm _ _))).1

/-- A finite rounded value is nearest to the number, and even on a tie. -/
theorem f64Round_nearest {neg : Bool} {n d : Nat} (hd : 0 < d)
    (h : f64Finite (f64Round neg n d) = true) (y : Binary64) :
    |(f64Mag (f64Round neg n d) * d : Int) - n| ≤ |(f64Mag y * d : Int) - n| ∧
    (|(f64Mag (f64Round neg n d) * d : Int) - n| = |(f64Mag y * d : Int) - n| →
      f64Mag y ≠ f64Mag (f64Round neg n d) → f64Frac (f64Round neg n d) % 2 = 0) := by
  rw [f64Frac_even_iff, f64Mag_eq, f64Mag_eq y, f64Round_bits_of_finite h]
  exact_mod_cast roundBits_nearest (n := n) hd _

/-- Settles O40: the largest finite value bounds the rounded one, and a finite rounded value has the
rounded bits. -/
theorem roundingIsToNearestEven : Obligations.RoundingIsToNearestEven := fun neg _n _d hd =>
  ⟨f64Round_finite neg hd, fun hfin =>
    ⟨f64Round_msb neg _ _, fun y _ => f64Round_nearest hd hfin y⟩⟩

end Sys2Proof.Machine
end

section
/-! Products, differences and exact values of binary64 (00_scope.md R11, 42_converter.md R148,
R149): each is a rounded number with a sign, so nearness is nearness of the magnitude. -/

namespace Sys2Proof.Machine

/-! ### Signed nearness -/

theorem f64Val_natAbs (x : Binary64) : (f64Val x).natAbs = f64Mag x := by
  rw [f64Val]
  split <;> simp

theorem f64Val_abs (x : Binary64) : |f64Val x| = f64Mag x := by
  rw [Int.abs_eq_natAbs, f64Val_natAbs]

/-- A value with the sign of a number stands as far from it as their magnitudes from each other. -/
theorem f64Val_sub_abs {x : Binary64} {num : Int} (den : Nat) (hneg : num < 0 → x.msb = true)
    (hpos : 0 < num → x.msb = false) :
    |f64Val x * den - num| = |(f64Mag x * den : Int) - num.natAbs| := by
  have hmag : (0 : Int) ≤ f64Mag x * den := by positivity
  rw [f64Val]
  generalize hm : (f64Mag x * den : Int) = mag at *
  cases hs : x.msb
  · have : 0 ≤ num := by
      by_contra h
      simp [hneg (by omega)] at hs
    rw [if_neg Bool.false_ne_true, hm, Int.natAbs_of_nonneg this]
  · have : num ≤ 0 := by
      by_contra h
      simp [hpos (by omega)] at hs
    rw [if_pos rfl, neg_mul, hm, Int.abs_eq_natAbs, Int.abs_eq_natAbs]
    omega

/-- Any value stands at least as far from a number as their magnitudes from each other. -/
theorem f64Mag_sub_abs_le (y : Binary64) (num : Int) (den : Nat) :
    |(f64Mag y * den : Int) - num.natAbs| ≤ |f64Val y * den - num| := by
  have h := abs_abs_sub_abs_le (f64Val y * den) num
  rwa [abs_mul, f64Val_abs, Nat.abs_cast, Int.abs_eq_natAbs num] at h

/-- Two opposite values as far from a number as each other: the values or the number is zero. -/
theorem eq_zero_of_abs_sub_eq {a b : Int} (h : |a - b| = |-a - b|) : a = 0 ∨ b = 0 := by
  rcases abs_eq_abs.mp h with h | h <;> omega

/-- A number rounded with its own sign is the nearest value, even on a tie. -/
theorem f64Round_nearestEven {neg : Bool} {num : Int} {den : Nat} (hd : 0 < den)
    (hneg : num < 0 → neg = true) (hpos : 0 < num → neg = false)
    (hle : num.natAbs ≤ den * f64MaxMag) :
    NearestEven (f64Round neg num.natAbs den) num den := by
  have hfin := f64Round_finite neg hd hle
  have hnear := f64Round_nearest hd hfin
  have hmsb := f64Round_msb neg num.natAbs den
  generalize f64Round neg num.natAbs den = x at *
  have herr := f64Val_sub_abs (x := x) (num := num) den (fun h => hmsb.trans (hneg h))
    (fun h => hmsb.trans (hpos h))
  have hzero (hnum : num = 0) : f64Val x = 0 := by
    have hle0 := (hnear 0#64).1
    have hmag0 : f64Mag 0#64 = 0 := rfl
    simp only [hnum, hmag0, Int.natAbs_zero, Nat.cast_zero, sub_zero, zero_mul, abs_zero,
      abs_nonpos_iff, mul_eq_zero, Nat.cast_eq_zero, hd.ne', or_false] at hle0
    exact Int.natAbs_eq_zero.mp ((f64Val_natAbs x).trans hle0)
  refine ⟨hfin, fun y _ => ?_⟩
  obtain ⟨hbest, htie⟩ := hnear y
  have hreverse := f64Mag_sub_abs_le y num den
  refine ⟨by rw [herr]; exact hbest.trans hreverse, fun heq hne => ?_⟩
  refine htie (le_antisymm hbest (hreverse.trans (herr ▸ heq).ge)) fun hmag => hne ?_
  rw [← f64Val_natAbs, ← f64Val_natAbs] at hmag
  rcases Int.natAbs_eq_natAbs_iff.mp hmag with hsame | hopposite
  · exact hsame
  · rw [hopposite, neg_mul] at heq
    have hx : f64Val x = 0 := by
      rcases eq_zero_of_abs_sub_eq heq with hx | hnum
      · exact (mul_eq_zero.mp hx).resolve_right (by exact_mod_cast hd.ne')
      · exact hzero hnum
    rw [hopposite, hx, neg_zero]

/-! ### Products and differences -/

theorem f64Mul_eq {a b : Binary64} (ha : f64Finite a = true) (hb : f64Finite b = true) :
    f64Mul a b = f64Round (a.msb != b.msb) (f64Mag a * f64Mag b) f64Units := by
  rw [f64Mul, ha, hb]
  rfl

theorem f64Sub_eq {a b : Binary64} (ha : f64Finite a = true) (hb : f64Finite b = true) :
    f64Sub a b = f64Round (f64SubNeg a b) (f64Val a - f64Val b).natAbs 1 := by
  rw [f64Sub, ha, hb]
  rfl

/-- The sign of a product of values, where it is not zero. -/
theorem f64Val_mul_sign (a b : Binary64) :
    (f64Val a * f64Val b < 0 → (a.msb != b.msb) = true) ∧
    (0 < f64Val a * f64Val b → (a.msb != b.msb) = false) := by
  have hmag : (0 : Int) ≤ f64Mag a * f64Mag b := by positivity
  rw [f64Val, f64Val]
  cases a.msb <;> cases b.msb <;> simp <;> omega

theorem f64SubNeg_of_ne {a b : Binary64} (h : f64Val a ≠ f64Val b) :
    f64SubNeg a b = decide (f64Val a < f64Val b) := if_neg h

theorem f64SubNeg_of_eq {a b : Binary64} (h : f64Val a = f64Val b) :
    f64SubNeg a b = (a.msb && !b.msb) := if_pos h

theorem f64Units_pos : 0 < f64Units := by
  rw [f64Units]
  positivity

theorem f64Mul_nearestEven {a b : Binary64} (ha : f64Finite a = true) (hb : f64Finite b = true)
    (h : f64Mag a * f64Mag b ≤ f64Units * f64MaxMag) :
    NearestEven (f64Mul a b) (f64Val a * f64Val b) f64Units := by
  obtain ⟨hneg, hpos⟩ := f64Val_mul_sign a b
  have hmag : (f64Val a * f64Val b).natAbs = f64Mag a * f64Mag b := by
    rw [Int.natAbs_mul, f64Val_natAbs, f64Val_natAbs]
  rw [f64Mul_eq ha hb, ← hmag]
  exact f64Round_nearestEven f64Units_pos hneg hpos (hmag.trans_le h)

theorem f64Sub_nearestEven {a b : Binary64} (ha : f64Finite a = true) (hb : f64Finite b = true)
    (h : |f64Val a - f64Val b| ≤ f64MaxMag) :
    NearestEven (f64Sub a b) (f64Val a - f64Val b) 1 := by
  rw [f64Sub_eq ha hb]
  refine f64Round_nearestEven Nat.one_pos (fun hlt => ?_) (fun hgt => ?_) ?_
  · rw [f64SubNeg_of_ne (by omega), decide_eq_true_iff]
    omega
  · rw [f64SubNeg_of_ne (by omega), decide_eq_false_iff_not]
    omega
  · rw [Int.abs_eq_natAbs] at h
    omega

/-- An exact zero difference is the zero of its sign. -/
theorem f64Sub_of_eq {a b : Binary64} (ha : f64Finite a = true) (hb : f64Finite b = true)
    (h : f64Val a = f64Val b) :
    f64Sub a b = if a.msb && !b.msb then 0x8000000000000000#64 else 0x0000000000000000#64 := by
  have hround (neg : Bool) :
      f64Round neg 0 1 = if neg then 0x8000000000000000#64 else 0x0000000000000000#64 := by
    cases neg <;> rfl
  rw [f64Sub_eq ha hb, h, sub_self, f64SubNeg_of_eq h]
  exact hround _

/-! ### Raw values -/

/-- Every integer of at most 53 bits is a finite value. -/
theorem exists_f64Mag_eq {v : Nat} (hv : v < 2 ^ 53) :
    ∃ y : Binary64, f64Finite y = true ∧ f64Mag y = v * f64Units := by
  rcases Nat.eq_zero_or_pos v with rfl | hpos
  · exact ⟨0#64, rfl, by rw [Nat.zero_mul]; rfl⟩
  have hlog : Nat.log2 v < 53 := (Nat.log2_lt hpos.ne').mpr hv
  have hlow : 2 ^ Nat.log2 v ≤ v := Nat.log2_self_le hpos.ne'
  have hhigh : v < 2 ^ (Nat.log2 v + 1) := Nat.lt_log2_self
  have hsplit (k : Nat) : 2 ^ (Nat.log2 v + k) * 2 ^ (52 - Nat.log2 v) = 2 ^ (52 + k) := by
    rw [← pow_add]
    congr 1
    omega
  have hq52 : 2 ^ 52 ≤ v * 2 ^ (52 - Nat.log2 v) := by
    rw [← hsplit 0]
    exact Nat.mul_le_mul_right _ hlow
  have hq53 : v * 2 ^ (52 - Nat.log2 v) < 2 ^ 53 := by
    rw [← hsplit 1]
    exact Nat.mul_lt_mul_of_pos_right hhigh (by positivity)
  have hlt : (1022 + Nat.log2 v) * 2 ^ 52 + v * 2 ^ (52 - Nat.log2 v) < 2047 * 2 ^ 52 := by omega
  have hbits : (BitVec.ofNat 64
      ((1022 + Nat.log2 v) * 2 ^ 52 + v * 2 ^ (52 - Nat.log2 v))).toNat % 2 ^ 63
      = (1022 + Nat.log2 v) * 2 ^ 52 + v * 2 ^ (52 - Nat.log2 v) := by
    rw [BitVec.toNat_ofNat]
    omega
  refine ⟨_, (f64Finite_iff _).mpr (hbits.trans_lt hlt), ?_⟩
  rw [f64Mag_eq, hbits, bitsMag_eq hq53.le (.inr hq52), Nat.mul_assoc, ← pow_add, f64Units]
  congr 2
  omega

/-- An integer of at most 53 bits is converted exactly. -/
theorem f64OfInt_exact {x : Int} (hx : x.natAbs < 2 ^ 53) :
    f64Finite (f64OfInt x) = true ∧ f64Val (f64OfInt x) = x * f64Units ∧
    (f64OfInt x).msb = decide (x < 0) := by
  obtain ⟨y, hy, hmag⟩ := exists_f64Mag_eq hx
  obtain ⟨hfin, -⟩ := f64Round_le (decide (x < 0)) Nat.one_pos hy
    (show x.natAbs * f64Units ≤ f64Mag y * 1 by omega)
  have hmsb := f64Round_msb (decide (x < 0)) (x.natAbs * f64Units) 1
  have hnear := (f64Round_nearest Nat.one_pos hfin y).1
  rw [hmag, Nat.cast_one, mul_one, mul_one, sub_self, abs_zero, abs_nonpos_iff,
    sub_eq_zero] at hnear
  have hexact : f64Mag (f64OfInt x) = x.natAbs * f64Units := Int.ofNat_inj.mp hnear
  refine ⟨hfin, ?_, hmsb⟩
  rw [f64Val, f64OfInt, hmsb, ← f64OfInt, hexact, Nat.cast_mul]
  rcases lt_or_ge x 0 with hneg | hpos
  · rw [decide_eq_true hneg, if_pos rfl, ← neg_mul, Int.ofNat_natAbs_of_nonpos hneg.le, neg_neg]
  · rw [decide_eq_false hpos.not_gt, if_neg Bool.false_ne_true, Int.natAbs_of_nonneg hpos]

theorem int16_natAbs_le (u : Half) : (int16 u).natAbs ≤ 32768 := by
  have := u.isLt
  rw [int16]
  split <;> omega

/-! ### The four constants -/

theorem f64Units_le_maxMag : 2 ^ 900 * f64Units ≤ f64MaxMag := by decide +kernel

/-- A literal that is no larger than the largest finite value is rounded to the nearest one. -/
theorem f64OfFraction_nearestEven {num den : Nat} (hd : 0 < den) (h : num ≤ den * 2 ^ 900) :
    NearestEven (f64OfFraction num den) (num * f64Units) den := by
  have hle : num * f64Units ≤ den * f64MaxMag := calc
    num * f64Units ≤ den * 2 ^ 900 * f64Units := Nat.mul_le_mul_right _ h
    _ = den * (2 ^ 900 * f64Units) := Nat.mul_assoc _ _ _
    _ ≤ den * f64MaxMag := Nat.mul_le_mul_left _ f64Units_le_maxMag
  have hnum : ((num * f64Units : Nat) : Int).natAbs = num * f64Units := Int.natAbs_natCast _
  have hnear := f64Round_nearestEven (neg := false) (num := ((num * f64Units : Nat) : Int)) hd
    (fun hneg => absurd hneg (by omega)) (fun _ => rfl) (hnum.trans_le hle)
  rw [hnum, Nat.cast_mul] at hnear
  exact hnear

theorem kh64_eq : f64OfFraction 16784924 (10 ^ 8) = Config.kh64 := by decide +kernel

theorem off64_eq : f64OfFraction 1000 1 = Config.off64 := by decide +kernel

theorem kvv64_eq : f64OfFraction 9155413 (10 ^ 9) = Config.kvv64 := by decide +kernel

theorem kang64_eq : f64OfFraction 9587526 (10 ^ 11) = Config.kang64 := by decide +kernel

/-- Settles O60: products and differences are rounded numbers with their sign, raw values have few
enough bits to be exact, and the constants are rounded literals. -/
theorem productsAndDifferencesAreRoundedExactly :
    Obligations.ProductsAndDifferencesAreRoundedExactly := by
  refine ⟨fun a b ha hb h => ⟨f64Mul_nearestEven ha hb h, ?mulSign⟩,
    fun a b ha hb h => ⟨f64Sub_nearestEven ha hb h, fun hne => ?subSign, f64Sub_of_eq ha hb⟩,
    fun u => f64OfInt_exact ((int16_natAbs_le u).trans_lt (by decide)), ?kh, ?off, ?kvv, ?kang⟩
  case mulSign => rw [f64Mul_eq ha hb, f64Round_msb]
  case subSign => rw [f64Sub_eq ha hb, f64Round_msb, f64SubNeg_of_ne hne]
  case kh =>
    rw [← kh64_eq]
    exact f64OfFraction_nearestEven (by decide) (by decide +kernel)
  case off =>
    rw [← off64_eq]
    exact f64OfFraction_nearestEven (by decide) (by decide +kernel)
  case kvv =>
    rw [← kvv64_eq]
    exact f64OfFraction_nearestEven (by decide) (by decide +kernel)
  case kang =>
    rw [← kang64_eq]
    exact f64OfFraction_nearestEven (by decide) (by decide +kernel)

end Sys2Proof.Machine
end

section
/-! The range of the scaled values (42_converter.md R155): a product or a difference of bounded
operands rounds to no more than a value that bounds the exact result. -/

namespace Sys2Proof.Machine

/-- A value is finite and its magnitude no larger than that of a finite value. -/
def FiniteUpTo (y x : Binary64) : Prop := f64Finite x = true ∧ f64Mag x ≤ f64Mag y

/-- The product with a raw value. -/
theorem f64Mul_raw_upTo {k y : Binary64} (hk : f64Finite k = true) (hy : f64Finite y = true)
    (h : f64Mag k * 32768 ≤ f64Mag y) (u : Half) :
    FiniteUpTo y (f64Mul k (f64OfInt (int16 u))) := by
  have hraw := int16_natAbs_le u
  obtain ⟨hfin, hval, -⟩ := f64OfInt_exact (hraw.trans_lt (by decide))
  have hmag : f64Mag (f64OfInt (int16 u)) = (int16 u).natAbs * f64Units := by
    rw [← f64Val_natAbs, hval, Int.natAbs_mul, Int.natAbs_natCast]
  rw [f64Mul_eq hk hfin, hmag, ← Nat.mul_assoc]
  exact f64Round_le _ f64Units_pos hy
    (Nat.mul_le_mul_right _ ((Nat.mul_le_mul_left _ hraw).trans h))

/-- The difference of two values. -/
theorem f64Sub_upTo {a b x y : Binary64} (ha : FiniteUpTo x a) (hb : f64Finite b = true)
    (hy : f64Finite y = true) (h : f64Mag x + f64Mag b ≤ f64Mag y) :
    FiniteUpTo y (f64Sub a b) := by
  obtain ⟨hfin, hmag⟩ := ha
  rw [f64Sub_eq hfin hb]
  refine f64Round_le _ Nat.one_pos hy ?_
  rw [Nat.mul_one]
  calc (f64Val a - f64Val b).natAbs ≤ f64Mag a + f64Mag b := by
        rw [← f64Val_natAbs, ← f64Val_natAbs]
        omega
    _ ≤ f64Mag x + f64Mag b := Nat.add_le_add_right hmag _
    _ ≤ f64Mag y := h

/-- The largest product of KH64, with a raw value of magnitude 32768: its exponent is 15 higher. -/
def maxHeightProduct : Binary64 := 0x40B57C157A3AAEA8#64

theorem scaleHeight_upTo (u : Half) :
    FiniteUpTo 0xC0B964157A3AAEA8#64 (scaleHeight (int16 u)) := by
  have hproduct : FiniteUpTo maxHeightProduct (f64Mul Config.kh64 (f64OfInt (int16 u))) :=
    f64Mul_raw_upTo rfl rfl (by decide +kernel) u
  exact f64Sub_upTo hproduct rfl rfl (by decide +kernel)

/-- Settles O41: the height by its product and its difference, the others by their product; 32768
bounds every raw value. -/
theorem scaledValuesAreFinite : Obligations.ScaledValuesAreFinite := by
  intro u
  obtain ⟨hheight, hheightMag⟩ := scaleHeight_upTo u
  obtain ⟨hvv, hvvMag⟩ : FiniteUpTo 0xC0B964157A3AAEA8#64 (scaleVv (int16 u)) :=
    f64Mul_raw_upTo rfl rfl (by decide +kernel) u
  obtain ⟨hangle, hangleMag⟩ : FiniteUpTo 0xC0B964157A3AAEA8#64 (scaleAngle (int16 u)) :=
    f64Mul_raw_upTo rfl rfl (by decide +kernel) u
  exact ⟨hheight, hvv, hangle, hheightMag, hvvMag, hangleMag⟩

end Sys2Proof.Machine
end
